-- ==== Sys2Proof/Word.lean ====
section
/-! DEFINITION. The words of the part: bytes of records and attributes, and sets of the 16 stripes of a segment. -/

namespace Sys2Proof

/-- A byte of a record, an attribute or a frame (spec/00, Conventions: a byte is 8 bits). -/
abbrev Byte := BitVec 8

/-- A set of stripes of one segment: stripe `i` is bit `i` (R3: a segment is 16 stripes). -/
abbrev StripeSet := BitVec 16

end Sys2Proof
end

