-- ==== Sys2Proof/Syntax.lean ====
section
/-! DEFINITION. The commands of the part: one constructor of `Instr` for each row of spec/opcode_table.json, with the operands that the row's frame (spec/11 11.6) or event carries, and the data those operands are made of. Parameters of frames are plain numbers, so that a parameter out of its range can be sent and refused (R39, R189). -/

namespace Sys2Proof

/-- The two host ports (spec/03). -/
inductive Port where
  | a
  | b
deriving DecidableEq, Repr

/-- A physical partition, 0 to 3 (spec/00, Conventions). -/
abbrev Part := Fin 4

/-- The two schemes by which a record's bytes are kept (R88). -/
inductive Scheme where
  | packed
  | stored
deriving DecidableEq, Repr

/-- One line of a segment's entry table (R105): a mark, or a fragment of a record with the fields its kind carries. -/
inductive Entry where
  | mark
  | whole (raw stored : Nat) (scheme : Scheme)
  | first (raw stored : Nat) (scheme : Scheme)
  | middle (stored : Nat) (scheme : Scheme)
  | last (stored : Nat) (scheme : Scheme)
deriving DecidableEq, Repr

/-- The seven fields of a segment header (R104); the first object and the marks before are unset until the first entry is placed. -/
structure SegHeader where
  part : Part
  number : Nat
  attempt : Nat
  firstObject : Option Nat
  marksBefore : Option Nat
  entryCount : Nat
  payloadLength : Nat
deriving DecidableEq, Repr

/-- A segment's contents: header, entry table and payload (R104). -/
structure Segment where
  header : SegHeader
  entries : List Entry
  payload : List Byte
deriving DecidableEq, Repr

/-- One entry of a partition's lane index (R11). -/
structure IndexEntry where
  lane : Nat
  firstSegment : Nat
  firstObject : Nat
  marksBefore : Nat
deriving DecidableEq, Repr

/-- One partition of a directory: its lane count (R4), its directory record (R10) and its lane index (R11). -/
structure PartDir where
  lanes : Nat
  segments : Nat
  objects : Nat
  marks : Nat
  used : Nat
  locked : Bool
  index : List IndexEntry
deriving DecidableEq, Repr

/-- The cartridge type a tag names (R1); `unknown` is any other type. -/
inductive TagType where
  | dataS
  | dataE
  | cleaning
  | unknown (code : Nat)
deriving DecidableEq, Repr

/-- The cartridge tag (R9): type, layout with directory records and lane indexes, Current flag, cleaning passes, and attributes 1 to 32 in order. -/
structure Tag where
  type : TagType
  parts : List PartDir
  current : Bool
  passes : Nat
  attributes : List (List Byte)
deriving DecidableEq, Repr

/-- One outcome that arrives when the head reaches the end of a lane (R123): of a segment's writing, or of a rewrite. -/
inductive ChannelOutcome where
  | verify (segment attempt : Nat) (failed : StripeSet)
  | rewrite (segment stripe : Nat) (passed : Bool)
deriving DecidableEq, Repr

/-- The commands of the part: the rows of spec/opcode_table.json in the table's order. -/
inductive Instr where
  /-- POWER_ON (R20): the tag of the cartridge the present sensor finds (none: no cartridge), the threaded indication, the write-tab sensor. -/
  | powerOn (cartridge : Option Tag) (threaded tab : Bool)
  /-- DEVICE_RESET (R194). -/
  | deviceReset
  /-- RESET_LINE (R194): the line is asserted. -/
  | resetLine
  /-- RESET_LINE_RELEASE (R194). -/
  | resetLineRelease
  /-- PORT_RESET (R60). -/
  | portReset (p : Port)
  /-- WRITE_RECORD (R52). -/
  | writeRecord (p : Port) (tag rawLength : Nat)
  /-- WRITE_MARKS (R133): the sync flag is a byte, 0 or 1. -/
  | writeMarks (p : Port) (tag count sync : Nat)
  /-- READ_RECORD (R141). -/
  | readRecord (p : Port) (tag limit : Nat)
  /-- VERIFY_SCAN (R153). -/
  | verifyScan (p : Port) (tag : Nat)
  /-- LOCATE (R78). -/
  | locate (p : Port) (tag logical object : Nat)
  /-- SPACE_OBJECTS (R79): the direction is a byte, 0 forward, 1 backward. -/
  | spaceObjects (p : Port) (tag direction count : Nat)
  /-- SPACE_MARKS (R80). -/
  | spaceMarks (p : Port) (tag direction count : Nat)
  /-- SEEK_END (R81). -/
  | seekEnd (p : Port) (tag : Nat)
  /-- REWIND (R82). -/
  | rewind (p : Port) (tag : Nat) (logical : Option Nat)
  /-- TRUNCATE (R134). -/
  | truncate (p : Port) (tag : Nat)
  /-- SYNC (R132). -/
  | sync (p : Port) (tag : Nat)
  /-- PARK (R28). -/
  | park (p : Port) (tag : Nat)
  /-- UNLOAD_REQUEST (R31). -/
  | unloadRequest (p : Port) (tag : Nat)
  /-- SET_PORT_OPTIONS (R190): three bytes, 0 or 1 each. -/
  | setPortOptions (p : Port) (tag compression mode readAhead : Nat)
  /-- QUERY_OUTCOME (R40). -/
  | queryOutcome (p : Port) (tag : Nat)
  /-- QUERY_DRIVE (R191): the group, 1 Drive to 7 Library. -/
  | queryDrive (p : Port) (tag group : Nat)
  /-- DATA_FRAME (R91). -/
  | dataFrame (p : Port) (tag : Nat) (final : Bool) (bytes : List Byte)
  /-- HOST_FRAME_DAMAGED (R182). -/
  | hostFrameDamaged (p : Port)
  /-- LOAD (R22). -/
  | load
  /-- UNLOAD (R31). -/
  | unload
  /-- PORT_CUT (R58): the port selector, 0 A, 1 B. -/
  | portCut (port : Nat)
  /-- GRANT (R49): right 0 empty, 1 READ, 2 READ_WRITE. -/
  | grant (port logical right physical : Nat)
  /-- LAY_OUT_PARTITIONS (R16). -/
  | layOutPartitions (lanes : List Nat)
  /-- LOCK_PARTITION (R18): value 0 unlocked, 1 locked. -/
  | lockPartition (physical value : Nat)
  /-- READ_ATTRIBUTE (R14). -/
  | readAttribute (id : Nat)
  /-- WRITE_ATTRIBUTE (R14). -/
  | writeAttribute (id : Nat) (bytes : List Byte)
  /-- SET_SETTING (R192). -/
  | setSetting (id value : Nat)
  /-- LIBRARY_QUERY_DRIVE (R191). -/
  | libraryQueryDrive (group port : Nat)
  /-- LIBRARY_FRAME_DAMAGED (R186). -/
  | libraryFrameDamaged
  /-- BREAK (R187): its start. -/
  | lineBreak
  /-- LIBRARY_LINE_RESET (R187): the end of a long break. -/
  | libraryLineReset
  /-- OUTGOING_BREAK (R188). -/
  | outgoingBreak
  /-- NEW_DIVISOR_EFFECTIVE (R185). -/
  | newDivisorEffective
  /-- CARTRIDGE_INSERTED (R21): the cartridge's tag and its write tab. -/
  | cartridgeInserted (tag : Tag) (tab : Bool)
  /-- CARTRIDGE_REMOVED (R21). -/
  | cartridgeRemoved
  /-- WRITE_TAB_CHANGE (R19): the tab as now sensed. -/
  | writeTabChange (tab : Bool)
  /-- LEADER_CAPTURED (R23). -/
  | leaderCaptured
  /-- THREAD_TIMER_EXPIRY (R23). -/
  | threadTimerExpiry
  /-- TENSION_SETTLED (R24). -/
  | tensionSettled
  /-- TENSION_LOST (R34). -/
  | tensionLost
  /-- LEADER_RELEASED (R36). -/
  | leaderReleased
  /-- RELOCATION_COMPLETE (R69). -/
  | relocationComplete
  /-- HEADER_READ (R76): the in-lane offset of the segment's first stripe on the head's lane, its header and its entry table. -/
  | headerRead (offset : Nat) (header : SegHeader) (entries : List Entry)
  /-- HEADER_UNREADABLE (R76): the in-lane offset of the segment's first stripe on the head's lane. -/
  | headerUnreadable (offset : Nat)
  /-- STRIPE_SET_READ (R144): the stripes that read correctly, whether the header and entry table could be taken from them, and the contents the copy's stripes carry. -/
  | stripeSetRead (readable : StripeSet) (named : Bool) (content : Segment)
  /-- REWRITE_STRIPE_READ (R145): the in-lane offset, and the segment, attempt and stripe it names. -/
  | rewriteStripeRead (offset segment attempt stripe : Nat)
  /-- LOOK_AHEAD_SPAN_END (R145). -/
  | lookAheadSpanEnd
  /-- BLANK_STRETCH (R167). -/
  | blankStretch
  /-- LANE_END_REACHED (R123): with the outcomes that arrive there, in the order of writing. -/
  | laneEndReached (outcomes : List ChannelOutcome)
  /-- SEGMENT_WRITTEN (R122). -/
  | segmentWritten
  /-- REWRITE_WRITTEN (R122). -/
  | rewriteWritten
  /-- VERIFY_OUTCOME (R124). -/
  | verifyOutcome (segment attempt : Nat) (failed : StripeSet)
  /-- REWRITE_OUTCOME (R125). -/
  | rewriteOutcome (segment stripe : Nat) (passed : Bool)
  /-- HOLD_TIMER_EXPIRY (R53). -/
  | holdTimerExpiry (row : Part)
  /-- INTERVAL_TIMER_EXPIRY (R163). -/
  | intervalTimerExpiry
  /-- CLEANING_TIMER_EXPIRY (R180). -/
  | cleaningTimerExpiry
  /-- RATE_REVIEW (R137). -/
  | rateReview
  /-- TAG_TRANSACTION_DONE (R158). -/
  | tagTransactionDone (success : Bool)
  /-- TAG_TRANSACTION_TIMEOUT (R158). -/
  | tagTransactionTimeout
  /-- TAG_READER_GRANT (R159). -/
  | tagReaderGrant
  /-- RECORD_PACKED (R92). -/
  | recordPacked
  /-- PACKING_ENGINE_TAKES_RECORD (R91). -/
  | packingEngineTakesRecord
  /-- EXPANSION_ENGINE_TAKES_REQUEST (R95). -/
  | expansionEngineTakesRequest
  /-- RECORD_EXPANDED (R96). -/
  | recordExpanded
  /-- DECODE_FAULT (R97). -/
  | decodeFault
  /-- SLOT_REQUEST_GRANTED (R102). -/
  | slotRequestGranted
  /-- READ_SLOT_WAIT_ENDS (R143). -/
  | readSlotWaitEnds (p : Port)
  /-- COMMAND_TAKEN_INTO_SERVICE (R41). -/
  | commandTakenIntoService (p : Port)
  /-- CLOSING_WAIT_ENDS (R55). -/
  | closingWaitEnds (p : Port)
  /-- SYNC_COMPLETE (R132). -/
  | syncComplete (p : Port)
  /-- VERIFIED_ACK (R131). -/
  | verifiedAck (p : Port)
  /-- TURN_GRANT (R64). -/
  | turnGrant
  /-- LEAVING_PROCEDURE_DONE (R67). -/
  | leavingProcedureDone
  /-- BACKHITCH_WAIT_END (R130). -/
  | backhitchWaitEnd
  /-- DRAINING_END (R32). -/
  | drainingEnd
  /-- BREAK_END (R187). -/
  | breakEnd
  /-- HOST_FRAME_SENT (R184). -/
  | hostFrameSent (p : Port)
deriving DecidableEq, Repr

end Sys2Proof
end

