-- ==== Sys2Proof/Config.lean ====
section
/-! DEFINITION. What the spec leaves open: constants without a body, of which no proof can know the value (log entry 9). -/

namespace Sys2Proof.Config

/-- The free value behind the place where a stop leaves a moving transport (R70): the spec bounds the place and does not state it. Applied to the model's counter `State.free`. -/
opaque stopChoice : Nat → Nat

/-- Whether the response of the library command taken last has been sent when the next one arrives (R189): the spec ends the command's time outstanding there, and no row of the table brings the end of a response's sending (log entry 23). Applied to the model's counter `State.free`. -/
opaque responseSent : Nat → Bool

end Sys2Proof.Config
end

