-- ==== Sys2Proof/Machine/State.lean ====
section
/-! DEFINITION. The state of the part as plain data, block by block (spec/00 "Blocks and how they meet"), its value after power-on, and the reasons a step may stop. -/

namespace Sys2Proof.Machine

/-! ## Containers -/

/-- One value for each host port. -/
structure PerPort (α : Type) where
  a : α
  b : α
deriving DecidableEq, Repr

/-- The value of port `p`. -/
def PerPort.get {α : Type} (x : PerPort α) : Port → α
  | .a => x.a
  | .b => x.b

/-- `x` with port `p`'s value replaced. -/
def PerPort.set {α : Type} (x : PerPort α) : Port → α → PerPort α
  | .a, v => { x with a := v }
  | .b, v => { x with b := v }

/-- One value for each physical partition 0 to 3. -/
structure PerPart (α : Type) where
  p0 : α
  p1 : α
  p2 : α
  p3 : α
deriving DecidableEq, Repr

/-- The value of physical partition `r`. -/
def PerPart.get {α : Type} (x : PerPart α) (r : Part) : α :=
  match r with
  | 0 => x.p0
  | 1 => x.p1
  | 2 => x.p2
  | 3 => x.p3

/-- `x` with partition `r`'s value replaced. -/
def PerPart.set {α : Type} (x : PerPart α) (r : Part) (v : α) : PerPart α :=
  match r with
  | 0 => { x with p0 := v }
  | 1 => { x with p1 := v }
  | 2 => { x with p2 := v }
  | 3 => { x with p3 := v }

/-! ## Commands, results and frames -/

/-- The right of a grant (R47). -/
inductive Right where
  | read
  | readWrite
deriving DecidableEq, Repr

/-- One grant entry (R47): a physical partition and a right. -/
structure Grant where
  part : Part
  right : Right
deriving DecidableEq, Repr

/-- A port's options (R190): compression, Verified acknowledgement, read-ahead. -/
structure Options where
  compression : Bool
  verified : Bool
  readAhead : Bool
deriving DecidableEq, Repr

/-- The non-query host commands with their parameters in range (spec/11 11.4). -/
inductive HostCmd where
  | writeRecord (rawLength : Nat)
  | writeMarks (count : Nat) (sync : Bool)
  | readRecord (limit : Nat)
  | verifyScan
  | locate (logical object : Nat)
  | spaceObjects (backward : Bool) (count : Nat)
  | spaceMarks (backward : Bool) (count : Nat)
  | seekEnd
  | rewind (logical : Option Nat)
  | truncate
  | sync
  | park
  | unloadRequest
  | setPortOptions (options : Options)
deriving DecidableEq, Repr

/-- The host results (spec/11 11.6). -/
inductive HostResult where
  | ok
  | parkDeclined
  | markFound
  | endOfData
  | beginning
  | longRecord
  | queueFull
  | tagInUse
  | formatFault
  | attention
  | noCartridge
  | notReady
  | notGranted
  | noSuchPartition
  | writeProtected
  | sessionHeld
  | notAtEnd
  | positionLost
  | headService
  | partitionFull
  | busyOther
  | readFault
  | writeFault
  | decodeFault
  | transportFault
  | tagFault
  | abortedByCut
  | scanAbandoned
  | verifyFault
deriving DecidableEq, Repr

/-- Why a session was lost (R45, R56). -/
inductive LossReason where
  | writeFault
  | dataLostAtEnd
  | tagFault
  | transportFault
deriving DecidableEq, Repr

/-- A deferred-fault record (R45): the partition, the first object not on tape, and the reason. -/
structure DeferredFault where
  part : Part
  firstLost : Nat
  reason : LossReason
deriving DecidableEq, Repr

/-- An attention set (R45): six kinds, each held at most once; a deferred write fault carries its record. -/
structure Attention where
  mediumChanged : Bool
  layoutChanged : Bool
  grantsChanged : Bool
  partitionTruncated : Bool
  deferred : Option DeferredFault
  deviceReset : Bool
deriving DecidableEq, Repr

/-- A Valid position context (R72). -/
structure Context where
  logical : Nat
  object : Nat
  marks : Nat
  atEnd : Bool
deriving DecidableEq, Repr

/-- The reason detail or result fields a host result carries (R43, spec/11 11.6). -/
inductive Detail where
  | none
  | attention (set : Attention)
  | readOnly
  | closing
  | rawLength (n : Nat)
  | residual (n : Nat)
  | scan (segments checkedPoint : Nat) (faulty : Option Nat)
  | produced (bytes : Nat)
  | options (held : Options)
deriving DecidableEq, Repr

/-- The resulting position of an outcome record (R43). -/
structure Position where
  logical : Nat
  object : Nat
  atEnd : Bool
deriving DecidableEq, Repr

/-- An outcome record (R43). -/
structure OutcomeRecord where
  command : Nat
  tag : Nat
  result : HostResult
  detail : Detail
  position : Option Position
  ew : Bool
deriving DecidableEq, Repr

/-- How far a command in service has come. -/
inductive Phase where
  /-- Waiting for its own session on the row to leave Closing (R55). -/
  | waitClose (row : Part)
  /-- As `waitClose`, and that session has gone to Failed (R55). -/
  | waitFailed
  /-- A Write Record awaiting a slot for its credit (R103), or a Truncate awaiting its slot (R111). -/
  | awaitSlot
  /-- A Write Record with credit, its record arriving (R91). -/
  | receiving
  /-- A Write Record whose record is in compression (R93). -/
  | compressing
  /-- A Write Record whose record is being placed (R109). -/
  | placing
  /-- A Write Marks with marks still to be placed (R133). -/
  | placingMarks (left : Nat)
  /-- A Verified-mode write waiting for the verify of a segment (R131). -/
  | awaitVerify (row : Part) (segment : Nat)
  /-- A Sync, or a Write Marks with its sync flag, waiting on the session (R132, R133). -/
  | awaitSync (row : Part)
  /-- Command work of the transport: a positioning command or a Truncate (R62). -/
  | tape
  /-- A Read Record or Verify Scan, its progress in the Read Unit's state (R140). -/
  | reading
  /-- An Unload Request whose unload runs (R31). -/
  | unloading
deriving DecidableEq, Repr

/-- A command in service (R41): its tag and parameters, the partition and right it resolved and the context it resolved them with (R48), the option readings it keeps (R89, R131), and whether the session it writes to has been lost since (R92). -/
structure InService where
  tag : Nat
  cmd : HostCmd
  part : Option Part
  right : Option Right
  start : Option Context
  compress : Bool
  verified : Bool
  lost : Bool
  phase : Phase
deriving DecidableEq, Repr

/-- A waiting command (R39). -/
structure Queued where
  tag : Nat
  cmd : HostCmd
deriving DecidableEq, Repr

/-! ## Loading -/

/-- The states of the load machine (spec/02 2.1). -/
inductive LoadState where
  | empty
  | seated
  | tagRead
  | threading
  | tensioning
  | recovering
  | ready
  | standby
  | waking
  | draining
  | rewinding
  | closing
  | unthreading
  | ejected
  | cleaning
  | faulted
deriving DecidableEq, Repr

/-- The cartridge kind (R20). -/
inductive Kind where
  | absent
  | data
  | cleaning
deriving DecidableEq, Repr

/-- The unload holder (R20). -/
inductive Holder where
  | nobody
  | library
  | port (p : Port)
deriving DecidableEq, Repr

/-- The unthread destination (R20). -/
inductive Destination where
  | ejected
  | seated
deriving DecidableEq, Repr

/-- The library results (spec/11 11.6). -/
inductive LibResult where
  | ok
  | busy
  | formatFault
  | noCartridge
  | cmFault
  | threadFault
  | cleanerExpired
  | cleaned
  | cutDone
  | frameRejected
  | notReady
deriving DecidableEq, Repr

/-- A Load in progress (R22), and the result it ends with when Unthreading ends (R23, R24). -/
inductive LoadRun where
  | going
  | endsThreadFault
  | endsCleaned (passes : Nat)
deriving DecidableEq, Repr

/-- The Load Sequencer (R20). -/
structure Lsq where
  state : LoadState
  kind : Kind
  threadTimer : Option Nat
  retries : Nat
  holder : Holder
  writeFault : Bool
  destination : Destination
  checkpointMissed : Bool
  /-- The Load being carried out; it outlives a library line reset, which only drops its response (R38). -/
  load : Option LoadRun
  /-- A library Unload has joined or begun the unload (R31, R36). -/
  joined : Bool
  /-- The reset path of R37 is being followed. -/
  resetPath : Bool
  /-- The forced path of R35 is being followed. -/
  forced : Bool
deriving DecidableEq, Repr

/-- The cartridge in the drive: its tag, and the write tab as sensed (R9, R19). -/
structure Cart where
  tag : Option Tag
  writeTab : Bool
deriving DecidableEq, Repr

/-! ## Sessions -/

/-- The states of a session row (R51). -/
inductive RowState where
  | none
  | streaming
  | held
  | closing
  | failed
deriving DecidableEq, Repr

/-- A closure of a session that waits: for the placement in progress (R109), or for the holder's write command (R50). -/
inductive CloseWait where
  | no
  | afterPlacing
  | afterWrite
deriving DecidableEq, Repr

/-- A row of the session table (R51), with the segment and mark numbering of its session (R104) and the mark of a closure that waits (R50, R109). -/
structure Row where
  holder : Option Port
  state : RowState
  holdTimer : Option Nat
  firstObject : Nat
  admitted : Nat
  unverified : Nat
  fault : Option DeferredFault
  nextSegment : Nat
  marksNext : Nat
  closeDue : CloseWait
deriving DecidableEq, Repr

/-- A row in None (R51), whose first object, which R51 does not give, is 0 (DESIGN CHOICE, log entry 81). -/
def Row.empty : Row :=
  { holder := Option.none, state := .none, holdTimer := Option.none, firstObject := 0, admitted := 0, unverified := 0,
    fault := Option.none, nextSegment := 0, marksNext := 0, closeDue := .no }

/-! ## Motion Scheduler -/

/-- A place on the tape: a lane and a coordinate in stripe slots (R2), and whether the lane's last slot lies behind it: the lane's end, which has no coordinate of its own (DEDUCED, log entry 31). -/
structure Place where
  lane : Nat
  coord : Nat
  past : Bool := false
deriving DecidableEq, Repr

/-- The transport's motion (R61). -/
inductive Motion where
  | stopped
  | streaming
  | relocating
  | parked
deriving DecidableEq, Repr

/-- The header landmark (R74). -/
structure Landmark where
  part : Part
  lane : Nat
  offset : Nat
  segment : Nat
  firstObject : Nat
  marksBefore : Nat
  begins : Bool
deriving DecidableEq, Repr

/-- The library work of R62. -/
inductive LibWork where
  | recoveryScan
  | returnHome
  | unloadRewind
  | cleaningRun
deriving DecidableEq, Repr

/-- Where a positioning command goes (R77): the partition's BOT, the committed end with the object and mark counts and the place taken at the grant (R84), an object, or a mark (with whether the context ends after it). -/
inductive Aim where
  | bot
  | theEnd (objects marks : Nat) (place : Place)
  | object (p : Nat)
  | mark (j : Nat) (after : Bool)
deriving DecidableEq, Repr

/-- A positioning command's target as taken at its grant (R78 to R84). -/
structure Goal where
  part : Part
  logical : Nat
  aim : Aim
  /-- The object number (or mark count, for Space Marks) the command asked for; the residual of R84 is counted from it. -/
  wanted : Nat
  marksCounted : Bool
  spacing : Bool
  /-- Whether the command makes a Lost context Valid: a Locate or a Rewind (R73). -/
  validates : Bool
  result : HostResult
  residual : Option Nat
deriving DecidableEq, Repr

/-- The work of a turn (R62). A positioning command carries its goal. -/
inductive Job where
  | position (p : Port) (goal : Goal)
  | read (p : Port)
  | verify (p : Port)
  | truncate (p : Port)
  | drain (r : Part) (p : Port)
  | fill (p : Port)
  | library (w : LibWork)
deriving DecidableEq, Repr

/-- A turn in progress (R61, R63): its work, the segments written since it began (R66), whether its command has been stopped so that it ends when the transport stops (R58, R83), and the row whose write point is being left first (R67). -/
structure Turn where
  job : Job
  written : Nat
  stopping : Bool
  leaving : Option Part
deriving DecidableEq, Repr

/-- The target of a header scan (R75). -/
inductive ScanTarget where
  | object (p : Nat)
  | mark (j : Nat)
deriving DecidableEq, Repr

/-- A header scan (R75, R76): its partition and target, the first segment it expects, and the segments already taken. -/
structure HeaderScan where
  part : Part
  target : ScanTarget
  expected : Nat
  taken : List Nat
deriving DecidableEq, Repr

/-- What follows a relocation. -/
inductive Next where
  /-- A positioning target reached without a scan (R77). -/
  | goal
  /-- A header scan begins (R76). -/
  | scan
  /-- Writing resumes at the write point (R121). -/
  | write
  /-- The copy in the accumulation is read again (R146). -/
  | reread
  /-- Streaming toward the next header resumes. -/
  | resume
  /-- Lane 0, coordinate 0 reached (R25, R33). -/
  | home
  /-- A partition's recovery scan begins (R166). -/
  | recover
deriving DecidableEq, Repr

/-- What the write head is writing (R121). -/
inductive Order where
  | segment (number : Nat)
  | rewrite (segment stripe : Nat)
deriving DecidableEq, Repr

/-- What the transport is doing for its turn. -/
inductive Activity where
  | idle
  | relocating (start target : Place) (hit : Bool) (next : Next)
  /-- Streaming in a header scan (R76). -/
  | scanning
  /-- Streaming toward the next segment's header (R143, R151, R153, R167). -/
  | seeking
  /-- Passing the 16 stripes of the copy in the accumulation (R144). -/
  | reading
  /-- In the look-ahead of that copy (R145). -/
  | lookingAhead
  /-- Stopped at a segment whose read-side slot a Verify Scan awaits (R113, R153). -/
  | awaitingSlot
  | writing (order : Order)
  /-- Running out the verify window without writing (R67, R130). -/
  | runningOut
  /-- The wait after a backhitch (R130). -/
  | backhitched
  /-- The cleaning tape runs (R180). -/
  | cleaning
deriving DecidableEq, Repr

/-- The Motion Scheduler (R61, R72). -/
structure Msc where
  head : Place
  motion : Motion
  turn : Option Turn
  lastServed : Port
  burst : Nat
  landmark : Option Landmark
  ctx : PerPort (Option Context)
  activity : Activity
  scan : Option HeaderScan
  libWork : Option LibWork
  /-- Stripe slots of the movement in progress, reported when it ends (R71). -/
  travel : Nat
  /-- The session whose write point the transport has not left (R66). -/
  atWrite : Option Part
deriving DecidableEq, Repr

/-! ## Record Compressor/Expander -/

/-- A token of the packing code (R86). -/
inductive Token where
  | literal (byte : Byte)
  | copy (distance length : Nat)
deriving DecidableEq, Repr

/-- A record intake (R85). -/
inductive Intake where
  | empty
  | receiving (declared : Nat) (bytes : List Byte)
  | waiting (bytes : List Byte)
  | packing (bytes : List Byte)
  | packed (raw : Nat) (scheme : Scheme) (stored : List Byte)
deriving DecidableEq, Repr

/-- The packing engine at work (R85): its port, the record's bytes up to the byte being encoded, the token stream so far and its bit count. -/
structure Packer where
  port : Port
  history : List Byte
  tokens : List Token
  bits : Nat
deriving DecidableEq, Repr

/-- An expansion request (R94); `scan` marks a Verify Scan's. -/
structure ExpRequest where
  port : Port
  scan : Bool
  object : Nat
  scheme : Scheme
  raw : Nat
  stored : Nat
  bytes : List Byte
  limit : Nat
deriving DecidableEq, Repr

/-- The expansion engine at work (R85): the produced count, the last 2,048 bytes produced (newest first), the place reached in the stored bytes in bits, the bytes put into frames, and the bytes passed to the port and not yet in a frame. -/
structure Expander where
  req : ExpRequest
  produced : Nat
  history : List Byte
  place : Nat
  framed : Nat
  held : List Byte
deriving DecidableEq, Repr

/-- The Record Compressor/Expander (R85). -/
structure Rcx where
  intake : PerPort Intake
  packer : Option Packer
  packQueue : List Port
  expander : Option Expander
  expQueue : List ExpRequest
deriving DecidableEq, Repr

/-! ## Segment Buffer Manager -/

/-- The states of a slot (R99). -/
inductive SlotState where
  | free
  | assembling
  | ready
  | unverified
  | filling
  | cached
deriving DecidableEq, Repr

/-- The owner of a slot (R99). -/
inductive SlotOwner where
  | nobody
  | row (r : Part)
  | port (p : Port)
deriving DecidableEq, Repr

/-- A segment slot (R99). `pinA` and `pinB` say which port's read draws on it: the pin count is their number. `releasing` says that it is to be freed when that count reaches 0, whatever its owner's read-ahead option is by then (R114). `copying` names the port of a Truncate whose copy in the slot is not complete (R111); `lane` and `offset` are the place of its latest writing (R126), for such a copy the place its segment was found at (R134), and `rewritesMade` the stripe rewrites made of it (R173). -/
structure Slot where
  state : SlotState
  owner : SlotOwner
  header : SegHeader
  entries : List Entry
  payload : List Byte
  lastUse : Option Nat
  pinA : Bool
  pinB : Bool
  invalidated : Bool
  releasing : Bool
  copying : Option Port
  lane : Nat
  offset : Nat
  rewritesMade : Nat
deriving DecidableEq, Repr

/-- A header with nothing in it (R104). -/
def blankHeader : SegHeader :=
  { part := 0, number := 0, attempt := 0, firstObject := none, marksBefore := none, entryCount := 0, payloadLength := 0 }

/-- A FREE slot (R99): an empty entry table, no pins, no owner. -/
def Slot.free : Slot :=
  { state := .free, owner := .nobody, header := blankHeader, entries := [], payload := [], lastUse := none,
    pinA := false, pinB := false, invalidated := false, releasing := false, copying := none, lane := 0, offset := 0, rewritesMade := 0 }

/-- Why a session asks for a slot (R101, R102). -/
inductive SlotReason where
  | credit
  | placing
  | mark
  | truncate
deriving DecidableEq, Repr

/-- A waiting slot request (R102). -/
structure SlotRequest where
  row : Part
  port : Port
  reason : SlotReason
deriving DecidableEq, Repr

/-- A record's placement in progress (R107): its row, scheme and raw length, and whether its first fragment has been placed. -/
structure Placing where
  row : Part
  scheme : Scheme
  raw : Nat
  begun : Bool
deriving DecidableEq, Repr

/-- The Segment Buffer Manager (R99). -/
structure Sbm where
  slots : List Slot
  requests : List SlotRequest
  placing : PerPort (Option Placing)
deriving DecidableEq, Repr

/-! ## Write and Verify Unit -/

/-- A live used-slot count (R6, R117) with the relative lane being written. -/
structure Live where
  count : Nat
  lane : Nat
deriving DecidableEq, Repr

/-- An entry of the verify window (R117). -/
structure WindowEntry where
  row : Part
  segment : Nat
  attempt : Nat
  lastStripe : Nat
deriving DecidableEq, Repr

/-- An entry of the rewrite list (R117): due, or written (with the in-lane offset of its latest rewrite). -/
structure RewriteEntry where
  row : Part
  segment : Nat
  stripe : Nat
  made : Nat
  due : Bool
  offset : Nat
deriving DecidableEq, Repr

/-- An entry of the completion list (R117). -/
structure Completed where
  row : Part
  segment : Nat
deriving DecidableEq, Repr

/-- The speed levels (R136). -/
inductive Level where
  | l1
  | l2
  | l3
  | l4
  | l5
deriving DecidableEq, Repr

/-- The rate selector's subject (R136). -/
inductive Subject where
  | nobody
  | session (r : Part)
  | reading (p : Port)
deriving DecidableEq, Repr

/-- The rate selector (R136); the streaming time is in seconds. -/
structure Rate where
  level : Level
  subject : Subject
  streamed : Nat
  bytes : Nat
  pendingLower : Option Level
  backhitches : Nat
deriving DecidableEq, Repr

/-- The Write and Verify Unit (R117). The drain demand is a function of the sessions and the commands in service (`drainDemand`). -/
structure Wvu where
  live : PerPart (Option Live)
  window : List WindowEntry
  rewrites : List RewriteEntry
  completion : List Completed
  backhitch : Option Part
  rate : Rate
deriving DecidableEq, Repr

/-! ## Read Unit -/

/-- A read's phase (R140). -/
inductive ReadPhase where
  | lookingUp
  | awaitingTurn
  | reading
  | awaitingSlot
  | delivering
deriving DecidableEq, Repr

/-- A Read Record in service (R140): object, partition, delivery limit, phase, the record's first segment once known, the segment and slot numbers found or filled so far, and the last segment recovered in its turn (R151). -/
structure ReadState where
  object : Nat
  part : Part
  limit : Nat
  phase : ReadPhase
  first : Option Nat
  held : List (Nat × Nat)
  lastRead : Option Nat
  /-- A cut by the other port has brought the committed end to the read's object or below (R148). -/
  fallen : Bool
deriving DecidableEq, Repr

/-- A port's fill state (R140): partition and next segment number. -/
inductive FillState where
  | none
  | posted (part : Part) (next : Nat)
  | running (part : Part) (next : Nat)
deriving DecidableEq, Repr

/-- How a Verify Scan's reading has ended (R154), while its expansions still run. -/
inductive ScanEnd where
  | complete
  | abandoned
  | stopped
deriving DecidableEq, Repr

/-- An object a Verify Scan has assembled: its number and whether it has been checked (R153). -/
structure ScanObject where
  object : Nat
  isMark : Bool
  checked : Bool
deriving DecidableEq, Repr

/-- Work that abandons a Verify Scan when it becomes eligible (R155): the other port's command work, the drain turn of a row with a drain demand, library work. -/
inductive Contender where
  | otherCommand
  | drain (r : Part)
  | libraryWork
deriving DecidableEq, Repr

/-- A Verify Scan in service (R140, R153): the object it starts at, the counts taken at its grant, `marks` the mark count with which its context ends at object c (R154), the checked point with the marks before it, the segments checked, the pending abandonment, the next segment expected with its expected first object and marks, the objects assembled and not yet passed by the checked point, the stored bytes of a record still continuing, the slots held with the number one past the last object they carry a piece of, and the work that has been eligible since before its turn (R155). -/
structure ScanState where
  part : Part
  start : Nat
  objects : Nat
  segments : Nat
  marks : Nat
  granted : Bool
  checkedPoint : Nat
  checkedMarks : Nat
  segmentsChecked : Nat
  pending : Bool
  next : Nat
  expectObject : Option Nat
  expectMarks : Nat
  found : List ScanObject
  partial_ : Option ExpRequest
  fragments : Nat
  held : List (Nat × Nat × Nat)
  ended : Option ScanEnd
  already : List Contender
deriving DecidableEq, Repr

/-- The read accumulation (R140): one segment copy under recovery. `forScan` marks a header scan's recovery of an unreadable header; `slot` is the slot the work took; `content` what the copy's stripes carry. -/
structure Acc where
  part : Part
  number : Nat
  attempt : Option Nat
  lane : Nat
  offset : Nat
  readable : StripeSet
  retries : Nat
  passed : Nat
  forScan : Bool
  slot : Option Nat
  content : Option Segment
deriving DecidableEq, Repr

/-- The Read Unit (R140). -/
structure Rdu where
  reads : PerPort (Option ReadState)
  fills : PerPort FillState
  scans : PerPort (Option ScanState)
  acc : Option Acc
deriving DecidableEq, Repr

/-! ## Directory and Tag Controller -/

/-- The directory copy (R12, R156): the type, the partitions and the Current flag. -/
structure Directory where
  type : TagType
  parts : List PartDir
  current : Bool
deriving DecidableEq, Repr

/-- A library access of the tag (R159). -/
inductive LibAccess where
  | readAttr (id : Nat)
  | writeAttr (id : Nat) (bytes : List Byte)
  | lock (part : Nat) (value : Bool)
  | layOut (lanes : List Nat)
deriving DecidableEq, Repr

/-- The kinds of tag transaction (R158, R159). A closing checkpoint is marked. -/
inductive TagKind where
  | loadRead
  | reread
  | passDecrement (passes : Nat)
  | staleMark
  | checkpoint (closing : Bool)
  | library (access : LibAccess)
deriving DecidableEq, Repr

/-- A tag transaction in flight (R156): its kind, its snapshot where it writes the directory, its timeout, the stale-mark waiters at its grant (R161), and whether a cut has been made to the copy since the snapshot (R161, R164). -/
structure Transaction where
  kind : TagKind
  snapshot : Option Directory
  timeout : Nat
  waiters : List Part
  cutSince : Bool
deriving DecidableEq, Repr

/-- The reads of the load machine that may be pending (R159). -/
inductive LoadRequest where
  | loadRead
  | reread
  | passDecrement (passes : Nat)
deriving DecidableEq, Repr

/-- A pending read of the load machine (R156, R159) and the moment it became pending. -/
structure PendingLoad where
  since : Nat
  request : LoadRequest
deriving DecidableEq, Repr

/-- A pending checkpoint (R162): the moment it became pending, and whether it is the closing one. -/
structure PendingCheckpoint where
  since : Nat
  closing : Bool
deriving DecidableEq, Repr

/-- A pending library access (R159) and the moment it became pending. -/
structure PendingAccess where
  since : Nat
  access : LibAccess
deriving DecidableEq, Repr

/-- A segment on the applied list of a recovery scan (R166), with the counts after it and the fields the lane index needs. -/
structure Applied where
  number : Nat
  attempt : Nat
  lane : Nat
  offset : Nat
  objects : Nat
  marks : Nat
  firstObject : Nat
  marksBefore : Nat
deriving DecidableEq, Repr

/-- The recovery scan of the partition in hand (R166). -/
structure Recovery where
  part : Nat
  start : PartDir
  applied : List Applied
  expected : Nat
  endPlace : Nat
deriving DecidableEq, Repr

/-- The Directory and Tag Controller (R156). `pendStale` is the moment at which a pending stale mark became pending. -/
structure Dtc where
  copy : Option Directory
  tagBehind : Bool
  reader : Option Transaction
  pendLoad : Option PendingLoad
  pendStale : Option Nat
  pendCheckpoint : Option PendingCheckpoint
  pendLibrary : Option PendingAccess
  waiters : List Part
  interval : Option Nat
  failures : Nat
  atRisk : Bool
  recovery : Option Recovery
deriving DecidableEq, Repr

/-! ## Head Condition Monitor and Settings Store -/

/-- The clean call levels (R170). -/
inductive CleanLevel where
  | none
  | advised
  | required
deriving DecidableEq, Repr

/-- The clean call reasons (R170). -/
inductive CleanReason where
  | meter
  | quality
  | fault
deriving DecidableEq, Repr

/-- A lane quality record (R173): `write` is its kind. -/
structure LaneRecord where
  lane : Nat
  write : Bool
  processed : Nat
  errors : Nat
deriving DecidableEq, Repr

/-- The cleaning run (R170): waiting for its turn or running, with the passes left and, while running, the cleaning timer. -/
inductive CleaningRun where
  | none
  | waiting (passes : Nat)
  | running (passes timer : Nat)
deriving DecidableEq, Repr

/-- The Head Condition Monitor (R170). -/
structure Hcm where
  meter : Nat
  level : CleanLevel
  reason : Option CleanReason
  openRecord : Option LaneRecord
  history : List LaneRecord
  verified : Nat
  extraAttempts : Nat
  rewrites : Nat
  run : CleaningRun
deriving DecidableEq, Repr

/-- The six settings (R192). -/
structure Settings where
  ewReserve : Nat
  appendHold : Nat
  checkpointInterval : Nat
  cleaningInterval : Nat
  qualityThreshold : Nat
  divisor : Nat
deriving DecidableEq, Repr

/-- The reset cause set (R193). -/
structure Causes where
  powerOn : Bool
  resetLine : Bool
  resetCommand : Bool
deriving DecidableEq, Repr

/-- The Settings Store: what survives power-off (R47, R172, R192, R193). -/
structure Sst where
  settings : Settings
  grants : PerPort (List (Option Grant))
  meter : Nat
  level : CleanLevel
  reason : Option CleanReason
  causes : Causes
deriving DecidableEq, Repr

/-! ## Library Port -/

/-- The library attention summary (R188). -/
structure Summary where
  tensionLost : Bool
  cartridgePulled : Bool
  hostEject : Bool
  driveReady : Bool
  tagUnreadable : Bool
  directoryAtRisk : Bool
  cleanCall : Bool
  resetDone : Bool
deriving DecidableEq, Repr

/-- The eight attention reasons (R188). -/
inductive AttentionReason where
  | tensionLost
  | cartridgePulled
  | hostEject
  | driveReady
  | tagUnreadable
  | directoryAtRisk
  | cleanCall
  | resetDone
deriving DecidableEq, Repr

/-- The library commands that can be outstanding (R189). -/
inductive LibCommand where
  | load
  | unload
  | portCut (p : Port)
  | access (a : LibAccess)
deriving DecidableEq, Repr

/-- The Library Line receiver (R186, R187). -/
inductive Receiver where
  | hunting
  | assembling (chars : List Byte)
  | inBreak
deriving DecidableEq, Repr

/-! ### Answers to Query Drive (R191) -/

/-- What of a session row Query Drive reports (R51, R191). -/
structure RowReport where
  holder : Option Port
  state : RowState
  firstObject : Nat
  admitted : Nat
  unverified : Nat
deriving DecidableEq, Repr

/-- The kind of the turn in progress, as reported (R61). -/
inductive TurnKind where
  | command
  | drain
  | fill
  | library
deriving DecidableEq, Repr

/-- The Drive group (R191). -/
structure DriveReport where
  state : LoadState
  kind : Kind
  type : Option TagType
  writeTab : Bool
  lane : Nat
  position : Nat
  motion : Motion
  turn : Option (TurnKind × Option Port)
  level : Level
  window : Nat
  rewritesDue : Nat
  current : Option Bool
  atRisk : Bool
  checkpointPending : Bool
  checkpointInFlight : Bool
  recovering : Bool
deriving DecidableEq, Repr

/-- One partition of the Partitions group (R191). -/
structure PartReport where
  segments : Nat
  objects : Nat
  marks : Nat
  used : Nat
  locked : Bool
  remaining : Nat
  ew : Bool
  row : RowReport
deriving DecidableEq, Repr

/-- The form of an intake, as reported (R85). -/
inductive IntakeForm where
  | empty
  | receiving
  | waiting
  | packing
  | packed
deriving DecidableEq, Repr

/-- The Port group (R191). The outer `Option` of the outcome record is absent for a host, the inner one for "none". -/
structure PortReport where
  inService : Bool
  waiting : Nat
  options : Options
  intake : IntakeForm
  read : Option ReadPhase
  fill : FillState
  context : Option Context
  attention : Attention
  readSlots : Nat
  outcome : Option (Option OutcomeRecord)
deriving DecidableEq, Repr

/-- The number of slots in each state (R99). -/
structure SlotCounts where
  free : Nat
  assembling : Nat
  ready : Nat
  unverified : Nat
  filling : Nat
  cached : Nat
deriving DecidableEq, Repr

/-- The Buffer group (R191). -/
structure BufferReport where
  slots : SlotCounts
  rows : PerPart SlotCounts
deriving DecidableEq, Repr

/-- The Head group (R191); a history record carries its quality ratio. -/
structure HeadReport where
  meter : Nat
  level : CleanLevel
  reason : Option CleanReason
  cleaningInterval : Nat
  qualityThreshold : Nat
  history : List (LaneRecord × Nat)
  openRecord : Option LaneRecord
  verified : Nat
  extraAttempts : Nat
  rewrites : Nat
  run : CleaningRun
deriving DecidableEq, Repr

/-- The answer to a Query Drive (R191). -/
inductive Report where
  | drive (r : DriveReport)
  | partitions (l : List PartReport)
  | port (r : PortReport)
  | buffer (r : BufferReport)
  | head (r : HeadReport)
  | settings (r : Settings)
  | library (summary : Summary) (causes : Causes)
deriving DecidableEq, Repr

/-- What a library response carries after its result and code (spec/11 11.6). -/
inductive LibDetail where
  | none
  | passes (n : Nat)
  | bytes (l : List Byte)
  | value (n : Nat)
  | report (r : Report)
deriving DecidableEq, Repr

/-- A library response (R189): the result, the code of the command answered (0 for FRAME_REJECTED), and the result fields. -/
structure LibResponse where
  result : LibResult
  code : Nat
  detail : LibDetail
deriving DecidableEq, Repr

/-- A new divisor that has not taken effect (R185): its value, and how many unsent responses end with the one that reports it. -/
structure DivisorChange where
  value : Nat
  ahead : Nat
deriving DecidableEq, Repr

/-- The Library Port (spec/11 11.2): `outstanding` is the command that has not been answered, and `unsent` counts the responses of `tx` up to and including that of the command taken last, where it may still be unsent, so that its command is outstanding (R189; log entry 23). -/
structure Lp where
  receiver : Receiver
  divisor : Nat
  newDivisors : List DivisorChange
  tx : List LibResponse
  outstanding : Option LibCommand
  unsent : Option Nat
  summary : Summary
  breakDue : Bool
deriving DecidableEq, Repr

/-- A frame a host port sends (spec/11 11.6). -/
inductive HostFrame where
  | response (tag : Nat) (result : HostResult) (ew : Bool) (context : Option Context) (detail : Detail)
  | outcome (tag : Nat) (record : Option OutcomeRecord)
  | report (tag : Nat) (report : Report)
  | data (tag : Nat) (final : Bool) (bytes : List Byte)
  | dataRequest (tag : Nat) (credit : Nat)
deriving DecidableEq, Repr

/-- A host port with the access controller's items for it (spec/11 11.1, spec/03). -/
structure PortState where
  rx : List Byte
  tx : List HostFrame
  credit : Option Nat
  inService : Option InService
  waiting : List Queued
  outcome : Option OutcomeRecord
  attention : Attention
  sector : List (Option Grant)
  options : Options
  cut : Bool
deriving DecidableEq, Repr

/-! ## The whole part -/

/-- The state of the part. `pending` is the queue of commands that are waiting; `clock` stamps the moments that R112 and R159 order; `free` numbers the free values used. -/
structure State where
  pending : List Instr
  lsq : Lsq
  cart : Cart
  ports : PerPort PortState
  rows : PerPart Row
  msc : Msc
  rcx : Rcx
  sbm : Sbm
  wvu : Wvu
  rdu : Rdu
  dtc : Dtc
  hcm : Hcm
  sst : Sst
  lp : Lp
  resetLine : Bool
  clock : Nat
  free : Nat
deriving DecidableEq, Repr

/-- No rule of the spec stops the part with a fault: every fault it names is a result or a state of the part, so this type has no constructor and no step ever faults. Safe: a run goes on where the part goes on. -/
inductive Fault where
deriving DecidableEq, Repr

/-- The reasons a step is refused. -/
inductive Refusal where
  /-- Raised by no meaning of this model: it is the host's name for a command without one. Safe: it would stop a run where the part goes on. -/
  | notModelled (mnemonic : String)
deriving DecidableEq, Repr

/-! ## Setters, one for each block -/

namespace State

def setPending (s : State) (x : List Instr) : State := { s with pending := x }
def setLsq (s : State) (x : Lsq) : State := { s with lsq := x }
def setCart (s : State) (x : Cart) : State := { s with cart := x }
def setPorts (s : State) (x : PerPort PortState) : State := { s with ports := x }
def setRows (s : State) (x : PerPart Row) : State := { s with rows := x }
def setMsc (s : State) (x : Msc) : State := { s with msc := x }
def setRcx (s : State) (x : Rcx) : State := { s with rcx := x }
def setSbm (s : State) (x : Sbm) : State := { s with sbm := x }
def setWvu (s : State) (x : Wvu) : State := { s with wvu := x }
def setRdu (s : State) (x : Rdu) : State := { s with rdu := x }
def setDtc (s : State) (x : Dtc) : State := { s with dtc := x }
def setHcm (s : State) (x : Hcm) : State := { s with hcm := x }
def setSst (s : State) (x : Sst) : State := { s with sst := x }
def setLp (s : State) (x : Lp) : State := { s with lp := x }
def setResetLine (s : State) (x : Bool) : State := { s with resetLine := x }
def setClock (s : State) (x : Nat) : State := { s with clock := x }
def setFree (s : State) (x : Nat) : State := { s with free := x }

/-- Port `p`'s items. -/
def port (s : State) (p : Port) : PortState := s.ports.get p
/-- `s` with port `p`'s items replaced. -/
def setPort (s : State) (p : Port) (x : PortState) : State := s.setPorts (s.ports.set p x)
/-- The session row of partition `r`. -/
def row (s : State) (r : Part) : Row := s.rows.get r
/-- `s` with the session row of partition `r` replaced. -/
def setRow (s : State) (r : Part) (x : Row) : State := s.setRows (s.rows.set r x)

end State

/-! ## Power-on values -/

/-- The attention set at power-on and after a Device Reset: {DEVICE_RESET} (R46). -/
def Attention.reset : Attention :=
  { mediumChanged := false, layoutChanged := false, grantsChanged := false, partitionTruncated := false, deferred := none, deviceReset := true }

/-- The empty attention set. -/
def Attention.empty : Attention :=
  { mediumChanged := false, layoutChanged := false, grantsChanged := false, partitionTruncated := false, deferred := none, deviceReset := false }

/-- The options' defaults: compression on, Buffered, read-ahead on (R190). -/
def Options.default : Options := { compression := true, verified := false, readAhead := true }

/-- The grant sector of a Settings Store never written: logical 1 is physical 0 with READ_WRITE (R47). -/
def defaultSector : List (Option Grant) :=
  [some { part := 0, right := .readWrite }, none, none, none, none, none, none]

/-- A port right after power-on, with the grant sector given (R184, R44, R46, R47, R190). -/
def PortState.powerOn (sector : List (Option Grant)) : PortState :=
  { rx := [], tx := [], credit := none, inService := none, waiting := [], outcome := none, attention := Attention.reset,
    sector := sector, options := Options.default, cut := false }

/-- The Load Sequencer in the state and with the destination given, the rest at power-on values (R20). The cartridge kind is none also with a threaded cartridge, for which R20 does not state it (DESIGN CHOICE, log entry 77). -/
def Lsq.powerOn (state : LoadState) (destination : Destination) : Lsq :=
  { state := state, kind := .absent, threadTimer := none, retries := 0, holder := .nobody, writeFault := false,
    destination := destination, checkpointMissed := false, load := none, joined := false, resetPath := false, forced := false }

/-- The Motion Scheduler at power-on (R61, R73). -/
def Msc.powerOn : Msc :=
  { head := { lane := 0, coord := 0 }, motion := .stopped, turn := none, lastServed := .a, burst := 0, landmark := none,
    ctx := { a := none, b := none }, activity := .idle, scan := none, libWork := none, travel := 0, atWrite := none }

/-- The Record Compressor/Expander at power-on and after a Device Reset (R85). -/
def Rcx.reset : Rcx :=
  { intake := { a := .empty, b := .empty }, packer := none, packQueue := [], expander := none, expQueue := [] }

/-- The Segment Buffer Manager at power-on and after a Device Reset: 32 FREE slots (R99). -/
def Sbm.reset : Sbm :=
  { slots := List.replicate 32 Slot.free, requests := [], placing := { a := none, b := none } }

/-- The rate selector at power-on (R136). -/
def Rate.powerOn : Rate := { level := .l3, subject := .nobody, streamed := 0, bytes := 0, pendingLower := none, backhitches := 0 }

/-- The Write and Verify Unit with everything but the rate selector cleared (R117). -/
def Wvu.cleared (rate : Rate) : Wvu :=
  { live := { p0 := none, p1 := none, p2 := none, p3 := none }, window := [], rewrites := [], completion := [], backhitch := none, rate := rate }

/-- The Read Unit at power-on and after a Device Reset (R140). -/
def Rdu.reset : Rdu :=
  { reads := { a := none, b := none }, fills := { a := .none, b := .none }, scans := { a := none, b := none }, acc := none }

/-- The Directory and Tag Controller at power-on and after a Device Reset (R156). -/
def Dtc.reset : Dtc :=
  { copy := none, tagBehind := false, reader := none, pendLoad := none, pendStale := none, pendCheckpoint := none, pendLibrary := none,
    waiters := [], interval := none, failures := 0, atRisk := false, recovery := none }

/-- The settings' defaults (R192). -/
def Settings.default : Settings :=
  { ewReserve := 600, appendHold := 20, checkpointInterval := 60, cleaningInterval := 400, qualityThreshold := 30, divisor := 16 }

/-- The reset cause set that power-on sets (R193). -/
def Causes.atPowerOn : Causes := { powerOn := true, resetLine := false, resetCommand := false }

/-- The empty reset cause set (R193). -/
def Causes.empty : Causes := { powerOn := false, resetLine := false, resetCommand := false }

/-- A Settings Store that has never been written, at its first power-on (R47, R170, R192, R193). -/
def Sst.fresh : Sst :=
  { settings := Settings.default, grants := { a := defaultSector, b := defaultSector }, meter := 0, level := .none, reason := none, causes := Causes.atPowerOn }

/-- The Head Condition Monitor restored from the store (R170). -/
def Hcm.restored (meter : Nat) (level : CleanLevel) (reason : Option CleanReason) : Hcm :=
  { meter := meter, level := level, reason := reason, openRecord := none, history := [], verified := 0, extraAttempts := 0, rewrites := 0, run := .none }

/-- The empty attention summary (R188). -/
def Summary.empty : Summary :=
  { tensionLost := false, cartridgePulled := false, hostEject := false, driveReady := false, tagUnreadable := false,
    directoryAtRisk := false, cleanCall := false, resetDone := false }

/-- The Library Port at power-on with the divisor given (R185, R186, R188). -/
def Lp.powerOn (divisor : Nat) : Lp :=
  { receiver := .hunting, divisor := divisor, newDivisors := [], tx := [], outstanding := none, unsent := none,
    summary := { Summary.empty with resetDone := true }, breakDue := true }

/-- The part right after power-on with an empty drive and a Settings Store that has never been written. -/
def State.reset : State :=
  { pending := []
    lsq := Lsq.powerOn .empty .ejected
    cart := { tag := none, writeTab := false }
    ports := { a := PortState.powerOn defaultSector, b := PortState.powerOn defaultSector }
    rows := { p0 := Row.empty, p1 := Row.empty, p2 := Row.empty, p3 := Row.empty }
    msc := Msc.powerOn
    rcx := Rcx.reset
    sbm := Sbm.reset
    wvu := Wvu.cleared Rate.powerOn
    rdu := Rdu.reset
    dtc := Dtc.reset
    hcm := Hcm.restored 0 .none none
    sst := Sst.fresh
    lp := Lp.powerOn 16
    resetLine := false
    clock := 0
    free := 0 }

end Sys2Proof.Machine
end

