-- ==== Sys2Proof/Machine/Media.lean ====
section
/-! DEFINITION. The geometry of the tape, the capacity quantities and the content check of the cartridge tag (spec/01). -/

namespace Sys2Proof.Machine

/-- Stripe slots of a lane (R2). -/
def laneSlots : Nat := 48000

/-- Positions of a lane (R2). -/
def lanePositions : Nat := 3000

/-- Lanes of a cartridge type (R1). -/
def typeLanes : TagType → Nat
  | .dataS => 64
  | .dataE => 96
  | .cleaning => 0
  | .unknown _ => 0

/-- Whether a type carries partitions (R1). -/
def isDataType : TagType → Bool
  | .dataS => true
  | .dataE => true
  | .cleaning => false
  | .unknown _ => false

/-- An even lane runs forward (R2). -/
def laneForward (lane : Nat) : Bool := lane % 2 == 0

/-- The coordinate of in-lane offset `o` on a lane (R2); an offset at or past the lane's end is taken at its last slot (DEDUCED, log entry 31). -/
def coordOf (lane o : Nat) : Nat :=
  if laneForward lane then min o (laneSlots - 1) else laneSlots - 1 - min o (laneSlots - 1)

/-- The in-lane offset of a coordinate on a lane (R2). -/
def offsetOf (lane coord : Nat) : Nat :=
  if laneForward lane then coord else laneSlots - 1 - coord

/-- The place of in-lane offset `o` on a lane: from 48,000 on, the lane's end. -/
def placeOf (lane o : Nat) : Place := { lane := lane, coord := coordOf lane o, past := laneSlots ≤ o }

/-- The place on a lane that a relocation to in-lane offset `o` brings the head to: the last slot's for the lane's end (R2, R69; DEDUCED, log entry 31). -/
def targetOf (lane o : Nat) : Place := placeOf lane (min o (laneSlots - 1))

/-- The position of a coordinate (R2). -/
def positionOf (coord : Nat) : Nat := coord / 16

/-- The difference of two coordinates (R69). -/
def distance (x y : Nat) : Nat := if x ≤ y then y - x else x - y

/-- Whether a new segment can start at in-lane offset `o` (R3). -/
def segmentFits (o : Nat) : Bool := o + 16 ≤ laneSlots

/-- A valid partition layout for a type (R4). -/
def layoutValid (type : TagType) (lanes : List Nat) : Bool :=
  1 ≤ lanes.length && lanes.length ≤ 4 && lanes.all (fun c => c % 2 == 0 && 2 ≤ c) && lanes.sum ≤ typeLanes type

/-- The first lane of partition `i` in a layout (R5). -/
def firstLane (parts : List PartDir) (i : Nat) : Nat := ((parts.take i).map (·.lanes)).sum

/-- The partition slot offset of relative lane `k` and in-lane offset `o` (R5). -/
def slotOffset (k o : Nat) : Nat := laneSlots * k + o

/-- A partition's capacity in stripe slots (R5). -/
def partSlots (d : PartDir) : Nat := laneSlots * d.lanes

/-- The remaining positions of a partition of `c` lanes with used-slot count `u` (R7). -/
def remainingPositions (c u : Nat) : Nat :=
  if laneSlots * c ≤ u then 0
  else (laneSlots - u % laneSlots) / 16 + lanePositions * (c - 1 - u / laneSlots)

/-- The hard reserve in positions (R8). -/
def hardReserve : Nat := 96

/-- Early warning: remaining positions at or below the reserve (R8). -/
def earlyWarning (reserve remaining : Nat) : Bool := remaining ≤ reserve

/-- A fresh partition of `c` lanes (R9, R16). -/
def freshPart (c : Nat) : PartDir :=
  { lanes := c, segments := 0, objects := 0, marks := 0, used := 0, locked := false, index := [] }

/-- The empty attributes 1 to 32 (R9). -/
def emptyAttributes : List (List Byte) := List.replicate 32 []

/-- A fresh data cartridge's tag (R9). -/
def freshTag (type : TagType) : Tag :=
  { type := type, parts := [freshPart (typeLanes type)], current := true, passes := 0, attributes := emptyAttributes }

/-- Whether a list of numbers strictly rises. -/
def risingStrict : List Nat → Bool
  | x :: y :: rest => x < y && risingStrict (y :: rest)
  | _ => true

/-- Whether a list of numbers never falls. -/
def rising : List Nat → Bool
  | x :: y :: rest => x ≤ y && rising (y :: rest)
  | _ => true

/-- The conditions of R12 on one partition's record and lane index; `first` is its first lane. -/
def partOk (first : Nat) (d : PartDir) : Bool :=
  d.used ≤ partSlots d
    && d.segments * 16 ≤ d.used
    && d.marks ≤ d.objects
    && ((d.segments == 0) == d.index.isEmpty)
    && d.index.all (fun e => first ≤ e.lane && e.lane < first + d.lanes)
    && risingStrict (d.index.map (·.lane))
    && risingStrict (d.index.map (·.firstSegment))
    && d.index.all (fun e => e.firstSegment < d.segments)
    && rising (d.index.map (·.firstObject))
    && rising (d.index.map (·.marksBefore))
    && d.index.all (fun e => e.firstObject ≤ d.objects && e.marksBefore ≤ d.marks)

/-- The partitions' conditions, each with its first lane (R5, R12). -/
def partsOk (first : Nat) : List PartDir → Bool
  | [] => true
  | d :: rest => partOk first d && partsOk (first + d.lanes) rest

/-- The content check of the load read (R12). -/
def tagOk (t : Tag) : Bool :=
  t.attributes.all (fun a => a.length ≤ 64) &&
    match t.type with
    | .unknown _ => false
    | .cleaning => t.passes ≤ 50
    | .dataS => layoutValid .dataS (t.parts.map (·.lanes)) && partsOk 0 t.parts
    | .dataE => layoutValid .dataE (t.parts.map (·.lanes)) && partsOk 0 t.parts

/-- The directory copy a tag becomes (R12). -/
def copyOf (t : Tag) : Directory := { type := t.type, parts := t.parts, current := t.current }

/-- The fresh directory of Lay Out Partitions (R16). -/
def freshDirectory (type : TagType) (lanes : List Nat) : Directory :=
  { type := type, parts := lanes.map freshPart, current := true }

/-- A tag that takes a directory with the Current flag given (R13, R160, R164). -/
def tagWithDirectory (t : Tag) (d : Directory) (current : Bool) : Tag :=
  { t with parts := d.parts, current := current }

/-- Attribute `id` of a tag, 1 to 32 (R14); one never written is empty. -/
def attributeOf (t : Tag) (id : Nat) : List Byte := t.attributes.getD (id - 1) []

/-- A tag with attribute `id` written (R14). -/
def tagWithAttribute (t : Tag) (id : Nat) (bytes : List Byte) : Tag :=
  { t with attributes := t.attributes.set (id - 1) bytes }

/-! ## Entries of a segment (R105) -/

/-- Whether an entry is a mark. -/
def isMark : Entry → Bool
  | .mark => true
  | _ => false

/-- Whether an entry begins an object: a Mark, a Whole or a First (R74). -/
def beginsObject : Entry → Bool
  | .mark => true
  | .whole .. => true
  | .first .. => true
  | _ => false

/-- Whether an object ends in an entry: a Mark, a Whole or a Last (R10). -/
def endsObject : Entry → Bool
  | .mark => true
  | .whole .. => true
  | .last .. => true
  | _ => false

/-- The stored bytes of an entry's fragment (R105). -/
def entryBytes : Entry → Nat
  | .mark => 0
  | .whole _ n _ => n
  | .first _ n _ => n
  | .middle n _ => n
  | .last n _ => n

/-- The scheme of an entry's record (R105). -/
def entryScheme : Entry → Option Scheme
  | .mark => none
  | .whole _ _ c => some c
  | .first _ _ c => some c
  | .middle _ c => some c
  | .last _ c => some c

/-- The number of marks among some entries. -/
def markCount (l : List Entry) : Nat := l.countP isMark

/-- One past the last object that ends in a segment whose first entry describes object `first`, or `first` when none ends (R10). -/
def objectsEnd (first : Nat) (l : List Entry) : Nat :=
  match l.getLast? with
  | none => first
  | some e => if endsObject e then first + l.length else first + l.length - 1

/-- The Mark entries of a segment whose object numbers are at or above `count` (R157). -/
def newMarks (first count : Nat) : List Entry → Nat
  | [] => 0
  | e :: rest => (if isMark e && count ≤ first then 1 else 0) + newMarks (first + 1) count rest

/-- Where entry `i`'s bytes begin in the payload (R105). -/
def payloadOffset (l : List Entry) (i : Nat) : Nat := ((l.take i).map entryBytes).sum

/-- The bytes of entry `i` of a segment. -/
def fragmentBytes (l : List Entry) (payload : List Byte) (i : Nat) : List Byte :=
  (payload.drop (payloadOffset l i)).take ((l[i]?.map entryBytes).getD 0)

end Sys2Proof.Machine
end

