-- ==== Sys2Proof/Machine/Operands.lean ====
section
/-! DEFINITION. The parameters of commands: their ranges (R39 check 1, R189) and the command codes (spec/11 11.6). -/

namespace Sys2Proof.Machine

/-- A number from `lo` to `hi`. -/
def inRange (lo hi n : Nat) : Bool := lo ≤ n && n ≤ hi

/-- A logical partition number, 1 to 7 (R39). -/
def logicalOk (l : Nat) : Bool := inRange 1 7 l

/-- A flag byte, 0 or 1. -/
def flagOf : Nat → Option Bool
  | 0 => some false
  | 1 => some true
  | _ => none

/-- A port selector, 0 A or 1 B (spec/11 11.6). -/
def portOf : Nat → Option Port
  | 0 => some .a
  | 1 => some .b
  | _ => none

/-- Write Record: raw length 1 to 1,048,576 (R39, R91). -/
def parseWriteRecord (n : Nat) : Option HostCmd :=
  if inRange 1 1048576 n then some (.writeRecord n) else none

/-- Write Marks: count 1 to 255, sync flag (R133). -/
def parseWriteMarks (n sync : Nat) : Option HostCmd :=
  match flagOf sync with
  | none => none
  | some f => if inRange 1 255 n then some (.writeMarks n f) else none

/-- Read Record: delivery limit 0 to 1,048,576 (R141). -/
def parseReadRecord (n : Nat) : Option HostCmd :=
  if inRange 0 1048576 n then some (.readRecord n) else none

/-- Locate: logical 1 to 7, object 0 to 4,294,967,295 (R78). -/
def parseLocate (l o : Nat) : Option HostCmd :=
  if logicalOk l && inRange 0 4294967295 o then some (.locate l o) else none

/-- A Space's direction and count, 0 to 16,777,215 (R79, R80). -/
def parseSpace (marks : Bool) (direction count : Nat) : Option HostCmd :=
  match flagOf direction with
  | none => none
  | some back =>
    if inRange 0 16777215 count then some (if marks then .spaceMarks back count else .spaceObjects back count) else none

/-- Rewind: a logical partition 1 to 7, or none (R82). -/
def parseRewind : Option Nat → Option HostCmd
  | none => some (.rewind none)
  | some l => if logicalOk l then some (.rewind (some l)) else none

/-- Set Port Options: three flags (R190). -/
def parseOptions (compression mode readAhead : Nat) : Option HostCmd :=
  match flagOf compression, flagOf mode, flagOf readAhead with
  | some c, some m, some r => some (.setPortOptions { compression := c, verified := m, readAhead := r })
  | _, _, _ => none

/-- The code of a host command (spec/11 11.6). -/
def cmdCode : HostCmd → Nat
  | .writeRecord _ => 1
  | .writeMarks .. => 2
  | .readRecord _ => 3
  | .verifyScan => 4
  | .locate .. => 5
  | .spaceObjects .. => 6
  | .spaceMarks .. => 7
  | .seekEnd => 8
  | .rewind _ => 9
  | .truncate => 10
  | .sync => 11
  | .park => 12
  | .unloadRequest => 13
  | .setPortOptions _ => 14

/-- The code of an outstanding library command (spec/11 11.6). -/
def libCode : LibCommand → Nat
  | .load => 1
  | .unload => 2
  | .portCut _ => 3
  | .access (.layOut _) => 5
  | .access (.lock ..) => 6
  | .access (.readAttr _) => 7
  | .access (.writeAttr ..) => 8

/-- Whether a command writes objects: Write Record or Write Marks. -/
def isWrite : HostCmd → Bool
  | .writeRecord _ => true
  | .writeMarks .. => true
  | _ => false

/-- Whether a holder's command of this kind closes its session on being taken (R55, first case). -/
def closesSession : HostCmd → Bool
  | .locate .. => true
  | .spaceObjects .. => true
  | .spaceMarks .. => true
  | .seekEnd => true
  | .rewind _ => true
  | .readRecord _ => true
  | .verifyScan => true
  | .truncate => true
  | _ => false

/-- The right a command needs (R48); none for a command that uses no partition. -/
def rightNeeded : HostCmd → Option Right
  | .writeRecord _ => some .readWrite
  | .writeMarks .. => some .readWrite
  | .truncate => some .readWrite
  | .readRecord _ => some .read
  | .verifyScan => some .read
  | .spaceObjects .. => some .read
  | .spaceMarks .. => some .read
  | .seekEnd => some .read
  | .locate .. => some .read
  | .rewind _ => some .read
  | .sync => none
  | .park => none
  | .unloadRequest => none
  | .setPortOptions _ => none

/-- A value clamped to a range (spec/00, Settings). -/
def clamp (lo hi n : Nat) : Nat := if n < lo then lo else if hi < n then hi else n

/-- The settings after writing setting `id`, with the value held; none for an id that names no setting (R192). -/
def writeSetting (t : Settings) (id value : Nat) : Option (Settings × Nat) :=
  match id with
  | 1 => let v := clamp 100 3000 value; some ({ t with ewReserve := v }, v)
  | 2 => let v := clamp 1 255 value; some ({ t with appendHold := v }, v)
  | 3 => let v := if value = 0 then 0 else clamp 10 3600 value; some ({ t with checkpointInterval := v }, v)
  | 4 => let v := clamp 50 2000 value; some ({ t with cleaningInterval := v }, v)
  | 5 => let v := clamp 5 500 value; some ({ t with qualityThreshold := v }, v)
  | 6 => let v := clamp 4 255 value; some ({ t with divisor := v }, v)
  | _ => none

end Sys2Proof.Machine
end

