-- ==== Sys2Proof/Machine/Flags.lean ====
section
/-! DEFINITION. The status sets of the part: attention sets (R45, R46), the library attention summary (R188), reset causes (R193), and the reads of a state that the EW and at-end flags are judged from (R8, R72). -/

namespace Sys2Proof.Machine

/-- The kinds of attention that carry no record (R45). -/
inductive AttentionKind where
  | mediumChanged
  | layoutChanged
  | grantsChanged
  | partitionTruncated
  | deviceReset
deriving DecidableEq, Repr

/-- An attention set with a kind added; a kind already held stays once (R45). -/
def Attention.add (a : Attention) : AttentionKind → Attention
  | .mediumChanged => { a with mediumChanged := true }
  | .layoutChanged => { a with layoutChanged := true }
  | .grantsChanged => { a with grantsChanged := true }
  | .partitionTruncated => { a with partitionTruncated := true }
  | .deviceReset => { a with deviceReset := true }

/-- The deferred-fault record kept when one is added: of the same partition the lower first-lost object, of another partition the one already held (R45). -/
def keepFault (held : Option DeferredFault) (f : DeferredFault) : DeferredFault :=
  match held with
  | none => f
  | some g => if g.part = f.part && f.firstLost < g.firstLost then f else g

/-- An attention set with DEFERRED_WRITE_FAULT added (R45). -/
def Attention.addFault (a : Attention) (f : DeferredFault) : Attention :=
  { a with deferred := some (keepFault a.deferred f) }

/-- Whether an attention set holds nothing (R46). -/
def Attention.isEmpty (a : Attention) : Bool :=
  !a.mediumChanged && !a.layoutChanged && !a.grantsChanged && !a.partitionTruncated && a.deferred.isNone && !a.deviceReset

/-- Whether a reason is held in the summary (R188). -/
def Summary.holds (x : Summary) : AttentionReason → Bool
  | .tensionLost => x.tensionLost
  | .cartridgePulled => x.cartridgePulled
  | .hostEject => x.hostEject
  | .driveReady => x.driveReady
  | .tagUnreadable => x.tagUnreadable
  | .directoryAtRisk => x.directoryAtRisk
  | .cleanCall => x.cleanCall
  | .resetDone => x.resetDone

/-- The summary with a reason added (R188). -/
def Summary.add (x : Summary) : AttentionReason → Summary
  | .tensionLost => { x with tensionLost := true }
  | .cartridgePulled => { x with cartridgePulled := true }
  | .hostEject => { x with hostEject := true }
  | .driveReady => { x with driveReady := true }
  | .tagUnreadable => { x with tagUnreadable := true }
  | .directoryAtRisk => { x with directoryAtRisk := true }
  | .cleanCall => { x with cleanCall := true }
  | .resetDone => { x with resetDone := true }

/-- A row with an open session: Streaming, Held or Closing. -/
def RowState.isOpen : RowState → Bool
  | .streaming => true
  | .held => true
  | .closing => true
  | .none => false
  | .failed => false

/-- A row that admits objects: Streaming or Held. -/
def RowState.isActive : RowState → Bool
  | .streaming => true
  | .held => true
  | .closing => false
  | .none => false
  | .failed => false

/-- The physical partitions. -/
def allParts : List Part := [0, 1, 2, 3]

namespace State

/-- A reason added to the library attention summary; one not already held makes an outgoing break due (R188). -/
def addReason (s : State) (k : AttentionReason) : State :=
  s.setLp { s.lp with summary := s.lp.summary.add k, breakDue := s.lp.breakDue || !s.lp.summary.holds k }

/-- A kind added to a port's attention set (R45). -/
def addAttention (s : State) (p : Port) (k : AttentionKind) : State :=
  s.setPort p { s.port p with attention := (s.port p).attention.add k }

/-- A deferred fault added to a port's attention set (R45). -/
def addFault (s : State) (p : Port) (f : DeferredFault) : State :=
  s.setPort p { s.port p with attention := (s.port p).attention.addFault f }

/-! ## Reads -/

/-- The directory copy's entry for a physical partition; none without a copy or outside the layout (R48). -/
def partDir (s : State) (r : Part) : Option PartDir :=
  s.dtc.copy.bind (fun d => d.parts[r.val]?)

/-- The committed segment count (R10). -/
def committedSegments (s : State) (r : Part) : Nat := ((s.partDir r).map (·.segments)).getD 0
/-- The committed object count (R10). -/
def committedObjects (s : State) (r : Part) : Nat := ((s.partDir r).map (·.objects)).getD 0
/-- The committed mark count (R10). -/
def committedMarks (s : State) (r : Part) : Nat := ((s.partDir r).map (·.marks)).getD 0
/-- The recorded used-slot count (R6). -/
def recordedUsed (s : State) (r : Part) : Nat := ((s.partDir r).map (·.used)).getD 0
/-- The lane count of a partition (R5). -/
def partLanes (s : State) (r : Part) : Nat := ((s.partDir r).map (·.lanes)).getD 0
/-- The first physical lane of a partition (R5). -/
def partFirst (s : State) (r : Part) : Nat := ((s.dtc.copy.map (fun d => firstLane d.parts r.val))).getD 0

/-- The current used-slot count: the live count while one is held, the recorded count otherwise (R6). -/
def currentUsed (s : State) (r : Part) : Nat :=
  match s.wvu.live.get r with
  | some l => l.count
  | none => s.recordedUsed r

/-- The remaining positions of a partition (R7). -/
def remaining (s : State) (r : Part) : Nat := remainingPositions (s.partLanes r) (s.currentUsed r)

/-- Whether a partition of the layout is at early warning (R8). -/
def ew (s : State) (r : Part) : Bool :=
  (s.partDir r).isSome && earlyWarning s.sst.settings.ewReserve (s.remaining r)

/-- Whether a partition is write-protected (R19). -/
def writeProtected (s : State) (r : Part) : Bool :=
  s.cart.writeTab || ((s.partDir r).map (·.locked)).getD false

/-- The grant entry of a logical partition in a port's sector (R47). -/
def grantEntry (s : State) (p : Port) (l : Nat) : Option Grant :=
  if logicalOk l then ((s.port p).sector[l - 1]?).join else none

/-- A port's position context (R72); none is Lost. -/
def context (s : State) (p : Port) : Option Context := s.msc.ctx.get p

/-- `s` with a port's position context replaced. -/
def setContext (s : State) (p : Port) (c : Option Context) : State :=
  s.setMsc { s.msc with ctx := s.msc.ctx.set p c }

/-- The physical partition of a port's context, found through its sector (R72). -/
def contextPart (s : State) (p : Port) : Option Part :=
  (s.context p).bind (fun c => (s.grantEntry p c.logical).map (·.part))

/-- Whether a port's context resolves to a partition (R72). -/
def contextIn (s : State) (p : Port) (r : Part) : Bool := s.contextPart p == some r

/-- The EW flag of an outcome record (R43). -/
def contextEw (s : State) (p : Port) : Bool :=
  match s.contextPart p with
  | none => false
  | some r => s.ew r

/-- Whether a port holds the row (R51). -/
def holds (s : State) (p : Port) (r : Part) : Bool := (s.row r).holder == some p

/-- The row a port holds (R51: at most one). -/
def sessionOf (s : State) (p : Port) : Option Part := allParts.find? (fun r => s.holds p r)

/-- The end visible to a port in a partition (R72). -/
def visibleEnd (s : State) (p : Port) (r : Part) : Nat :=
  if s.holds p r && (s.row r).state.isOpen then (s.row r).firstObject + (s.row r).admitted else s.committedObjects r

end State

/-- The other host port. -/
def otherPort : Port → Port
  | .a => .b
  | .b => .a

end Sys2Proof.Machine
end

