-- ==== Sys2Proof/Machine/Head.lean ====
section
/-! DEFINITION. The Head Condition Monitor: meter, lane quality and clean call (spec/10). -/

namespace Sys2Proof.Machine

/-- The most the head meter holds (R170). -/
def meterMax : Nat := 4294967295

/-- The quality ratio of a lane record, in per mille, rounded down (R174). -/
def qualityRatio (r : LaneRecord) : Nat := 1000 * r.errors / r.processed

/-- The head meter after a movement of the stripe slots given: 2 cm each, stopping at its maximum (R171). -/
def meterAfter (meter slots : Nat) : Nat := min meterMax (meter + 2 * slots)

namespace State

/-- A rise of the clean call to a level for a reason: written to the store with the meter, and CLEAN_CALL raised (R172, R175). -/
def raiseClean (s : State) (level : CleanLevel) (reason : CleanReason) : State :=
  ((s.setHcm { s.hcm with level := level, reason := some reason }).setSst
    { s.sst with meter := s.hcm.meter, level := level, reason := some reason }).addReason .cleanCall

/-- The meter thresholds of R175 judged against the meter: the interval in kilometres times 100,000 for Advised, times 125,000 for Required. -/
def judgeMeter (s : State) : State :=
  if s.sst.settings.cleaningInterval * 125000 ≤ s.hcm.meter then
    if s.hcm.level = .required then s else s.raiseClean .required .meter
  else if s.sst.settings.cleaningInterval * 100000 ≤ s.hcm.meter then
    if s.hcm.level = .none then s.raiseClean .advised .meter else s
  else s

/-- The quality condition of R175: three records, every ratio at or above the threshold. -/
def judgeQuality (s : State) : State :=
  if s.hcm.history.length = 3 && s.hcm.history.all (fun r => s.sst.settings.qualityThreshold ≤ qualityRatio r) then
    if s.hcm.level = .none then s.raiseClean .advised .quality else s
  else s

/-- The fault condition of R175: a session lost with reason WRITE_FAULT. -/
def judgeFault (s : State) : State :=
  match s.hcm.level with
  | .none => s.raiseClean .advised .fault
  | .advised => s.raiseClean .required .fault
  | .required => s

/-- The live meter written to its copy in the store (R172). -/
def copyMeter (s : State) : State := s.setSst { s.sst with meter := s.hcm.meter }

/-- The copy written when the meter has risen by 100,000 cm or more since it was last written (R172). -/
def copyMeterIfDue (s : State) : State :=
  if s.sst.meter + 100000 ≤ s.hcm.meter then s.copyMeter else s

/-- A movement reported to the meter (R71, R171): the meter, its copy and the thresholds. -/
def reportTravel (s : State) (slots : Nat) : State :=
  ((s.setHcm { s.hcm with meter := meterAfter s.hcm.meter slots }).copyMeterIfDue).judgeMeter

/-- The movement in progress ends and is reported (R71). -/
def endMovement (s : State) : State :=
  if s.msc.travel = 0 then s else (s.setMsc { s.msc with travel := 0 }).reportTravel s.msc.travel

/-- The open lane record is finished: it enters the history of at most three when it covers 64 segments or more, and the quality condition is judged (R174). -/
def finishRecord (s : State) : State :=
  match s.hcm.openRecord with
  | none => s
  | some r =>
    if 64 ≤ r.processed / 16 then
      let h := if s.hcm.history.length < 3 then s.hcm.history else s.hcm.history.drop 1
      (s.setHcm { s.hcm with openRecord := none, history := h ++ [r] }).judgeQuality
    else s.setHcm { s.hcm with openRecord := none }

/-- A count for the lane the head is on (R173): it joins the open record, or opens one. A record of another lane or kind is finished first. -/
def countLane (s : State) (write : Bool) (processed errors : Nat) : State :=
  let s := match s.hcm.openRecord with
    | some r => if r.lane = s.msc.head.lane && r.write = write then s else s.finishRecord
    | none => s
  let r := s.hcm.openRecord.getD { lane := s.msc.head.lane, write := write, processed := 0, errors := 0 }
  s.setHcm { s.hcm with openRecord := some { r with processed := r.processed + processed, errors := r.errors + errors } }

/-- A verified segment's totals: attempts beyond the first, and stripe rewrites (R173). -/
def countVerified (s : State) (extra rewrites : Nat) : State :=
  s.setHcm { s.hcm with verified := s.hcm.verified + 1, extraAttempts := s.hcm.extraAttempts + extra, rewrites := s.hcm.rewrites + rewrites }

/-- A cleaning run in progress is abandoned: the head's condition stays as it was (R181). -/
def abandonCleaning (s : State) : State := s.setHcm { s.hcm with run := .none }

/-- The end of a completed cleaning run (R180). -/
def completeCleaning (s : State) : State :=
  (s.setHcm { meter := 0, level := .none, reason := none, openRecord := none, history := [], verified := 0, extraAttempts := 0, rewrites := 0, run := .none }).setSst
    { s.sst with meter := 0, level := .none, reason := none }

/-- The passes left that a cleaning run holds (R179). -/
def cleaningPasses (s : State) : Option Nat :=
  match s.hcm.run with
  | .none => none
  | .waiting n => some n
  | .running n _ => some n

end State

end Sys2Proof.Machine
end

