-- ==== Sys2Proof/Machine/Slots.lean ====
section
/-! DEFINITION. The segment slots: counting, taking, placing an entry, closing, pinning and invalidating (spec/06). -/

namespace Sys2Proof.Machine

/-- A slot on the write side (R99). -/
def Slot.writeSide (x : Slot) : Bool :=
  match x.state with
  | .assembling => true
  | .ready => true
  | .unverified => true
  | _ => false

/-- A slot on the read side (R99). -/
def Slot.readSide (x : Slot) : Bool :=
  match x.state with
  | .filling => true
  | .cached => true
  | _ => false

/-- Whether a port's read pins the slot. -/
def Slot.pinnedBy (x : Slot) : Port → Bool
  | .a => x.pinA
  | .b => x.pinB

/-- The pin count, 0 to 2 (R99). -/
def Slot.pins (x : Slot) : Nat := (if x.pinA then 1 else 0) + (if x.pinB then 1 else 0)

/-- Whether any read pins the slot. -/
def Slot.pinned (x : Slot) : Bool := x.pinA || x.pinB

/-- The slot with port `p`'s pin set or dropped. -/
def Slot.setPin (x : Slot) (p : Port) (v : Bool) : Slot :=
  match p with
  | .a => { x with pinA := v }
  | .b => { x with pinB := v }

/-- The room left in a slot (R106). -/
def Slot.room (x : Slot) : Nat := 262144 - 64 - 8 * x.entries.length - x.payload.length

/-- A write-side slot of row `r` that belongs to its session: a Truncate's uncompleted copy does not yet (R111). -/
def Slot.ofSession (x : Slot) (r : Part) : Bool := x.writeSide && x.owner == .row r && x.copying.isNone

/-- The number of write-side slots (R100). -/
def writeSideCount (l : List Slot) : Nat := l.countP (·.writeSide)

/-- The number of read-side slots of a port (R99). -/
def readSideCount (l : List Slot) (p : Port) : Nat := l.countP (fun x => x.readSide && x.owner == .port p)

/-- The lowest-numbered FREE slot (R102). -/
def lowestFree (l : List Slot) : Option Nat := l.findIdx? (fun x => x.state == .free)

/-- The better of two candidates for reclaim: the one with the older last use (R102). -/
def olderUse (best : Option (Nat × Nat)) (i : Nat) (x : Slot) : Option (Nat × Nat) :=
  let u := x.lastUse.getD 0
  match best with
  | none => some (i, u)
  | some (j, v) => if u < v then some (i, u) else some (j, v)

/-- The CACHED slot with no pin and the oldest last use among those a condition admits (R102, R113). -/
def oldestCached (l : List Slot) (ok : Slot → Bool) : Option Nat :=
  (l.zipIdx.foldl (fun best y => if y.1.state == .cached && !y.1.pinned && ok y.1 then olderUse best y.2 y.1 else best) none).map (·.1)

/-- The slot the write side may take at this moment: fewer than 24 write-side slots, and the lowest FREE slot or else the oldest unpinned CACHED slot (R102). -/
def slotForWriting (l : List Slot) : Option Nat :=
  if writeSideCount l < 24 then
    match lowestFree l with
    | some i => some i
    | none => oldestCached l (fun _ => true)
  else none

/-- The slot a missing read of port `p` may take (R113): of the FREE ones the lowest-numbered (DESIGN CHOICE, log entry 70). -/
def slotForRead (l : List Slot) (p : Port) : Option Nat :=
  if readSideCount l p < 8 then
    match lowestFree l with
    | some i => some i
    | none => oldestCached l (fun _ => true)
  else oldestCached l (fun x => x.owner == .port p)

/-- The slot a fill of port `p` may take: it does not reclaim (R113). -/
def slotForFill (l : List Slot) (p : Port) : Option Nat :=
  if readSideCount l p < 8 then lowestFree l else none

/-- The CACHED slot that holds a segment, not invalidated (R112). -/
def lookupSlot (l : List Slot) (r : Part) (n : Nat) : Option Nat :=
  l.findIdx? (fun x => x.state == .cached && !x.invalidated && x.header.part == r && x.header.number == n)

/-- The position in a slot's entry table of the entry that begins object `p` (R142). -/
def beginsAt (x : Slot) (p : Nat) : Option Nat :=
  match x.header.firstObject with
  | none => none
  | some f =>
    if p < f then none
    else match x.entries[p - f]? with
      | none => none
      | some e => if beginsObject e then some (p - f) else none

/-- The CACHED slot that holds the beginning of object `p` of a partition (R142). -/
def lookupObject (l : List Slot) (r : Part) (p : Nat) : Option Nat :=
  l.findIdx? (fun x => x.state == .cached && !x.invalidated && x.header.part == r && (beginsAt x p).isSome)

/-- The numbers of slots in each state among those a condition admits (R99). -/
def countSlots (l : List Slot) (ok : Slot → Bool) : SlotCounts :=
  let n := fun st => l.countP (fun x => x.state == st && ok x)
  { free := n .free, assembling := n .assembling, ready := n .ready, unverified := n .unverified, filling := n .filling, cached := n .cached }

/-- An entry placed in an assembling slot: the first entry sets the header's first object and marks before (R104, R106). -/
def Slot.place (x : Slot) (e : Entry) (bytes : List Byte) (object marks : Nat) : Slot :=
  { x with
    entries := x.entries ++ [e]
    payload := x.payload ++ bytes
    header :=
      { x.header with
        firstObject := if x.entries.isEmpty then some object else x.header.firstObject
        marksBefore := if x.entries.isEmpty then some marks else x.header.marksBefore
        entryCount := x.entries.length + 1
        payloadLength := x.payload.length + bytes.length } }

/-- Whether a slot is to be released as soon as no read pins it (R114): marked for it before, or its owner has read-ahead off now; a slot that a fill which went on has filled is judged so too (DESIGN CHOICE, log entry 63). -/
def Slot.toRelease (readAhead : PerPort Bool) (x : Slot) : Bool :=
  x.releasing ||
    match x.owner with
    | .port p => !readAhead.get p
    | _ => false

/-- What becomes of a slot whose pin has been dropped: with none left, an invalidated slot is freed (R115) and one to be released is released (R114); with the other port's pin left, it stays marked for its release. -/
def Slot.afterUnpin (readAhead : PerPort Bool) (x : Slot) : Slot :=
  if x.state == .cached then
    if x.pinned then { x with releasing := x.toRelease readAhead }
    else if x.invalidated || x.toRelease readAhead then Slot.free
    else x
  else x

/-- A slot at a Set Port Options of port `p` that carries read-ahead off (R114): a CACHED one of the port is released, at once without a pin, and otherwise when its pin count reaches 0. -/
def Slot.readAheadOff (x : Slot) (p : Port) : Slot :=
  if x.state == .cached && x.owner == .port p then
    if x.pinned then { x with releasing := true } else Slot.free
  else x

/-- Invalidation of a read-side slot: freed at once when CACHED without a pin, marked otherwise (R115). -/
def Slot.invalidate (x : Slot) : Slot :=
  if x.state == .cached && !x.pinned then Slot.free else { x with invalidated := true }

/-- The lower of a number found so far and another. -/
def lowerOf (best : Option Nat) (n : Nat) : Option Nat :=
  match best with
  | none => some n
  | some m => some (min m n)

/-- A slot of port `p` at that port's reset: freed, but one that the other port's read pins is freed when the pin is dropped (R60, R112; log entry 26). -/
def Slot.resetBy (x : Slot) (p : Port) : Slot :=
  if x.readSide && x.owner == .port p then
    (if x.pinnedBy (otherPort p) then { x with invalidated := true } else Slot.free)
  else x

namespace State

/-- Slot `i`. -/
def slot (s : State) (i : Nat) : Slot := s.sbm.slots.getD i Slot.free

/-- `s` with slot `i` replaced. -/
def setSlot (s : State) (i : Nat) (x : Slot) : State := s.setSbm { s.sbm with slots := s.sbm.slots.set i x }

/-- `s` with every slot changed. -/
def mapSlots (s : State) (f : Slot → Slot) : State := s.setSbm { s.sbm with slots := s.sbm.slots.map f }

/-- The session's assembling slot (R100: at most one). -/
def assemblingOf (s : State) (r : Part) : Option Nat :=
  s.sbm.slots.findIdx? (fun x => x.state == .assembling && x.owner == .row r && x.copying.isNone)

/-- The slot holding segment `n` of a row's session on the write side (R100). -/
def writeSlotOf (s : State) (r : Part) (n : Nat) : Option Nat :=
  s.sbm.slots.findIdx? (fun x => x.ofSession r && x.header.number == n)

/-- The number of a row's READY slots. -/
def readyCount (s : State) (r : Part) : Nat := s.sbm.slots.countP (fun x => x.ofSession r && x.state == .ready)

/-- The lowest segment number among a row's slots that a condition admits. -/
def lowestSegment (s : State) (r : Part) (ok : Slot → Bool) : Option Nat :=
  s.sbm.slots.foldl (fun best x => if x.ofSession r && ok x then lowerOf best x.header.number else best) none

/-- A moment's stamp, later than every one before it (R112, R159). -/
def tick (s : State) : State := s.setClock (s.clock + 1)

/-- Whether the row's holder has a Write Record, Write Marks or Sync in service (R53). -/
def holderBusy (s : State) (r : Part) : Bool :=
  match (s.row r).holder with
  | none => false
  | some p =>
    match (s.port p).inService with
    | none => false
    | some c => isWrite c.cmd || c.cmd == .sync

/-- Whether the row's holder has a Write Record or Write Marks in service (R50, R53). -/
def holderWriting (s : State) (r : Part) : Bool :=
  match (s.row r).holder with
  | none => false
  | some p =>
    match (s.port p).inService with
    | none => false
    | some c => isWrite c.cmd

/-- An open session is Held when nothing is unverified and its holder has no write or Sync in service, Streaming otherwise (R53). -/
def refreshRow (s : State) (r : Part) : State :=
  let x := s.row r
  if x.state.isActive then
    s.setRow r { x with state := if x.unverified = 0 && !s.holderBusy r then .held else .streaming }
  else s

/-- A slot taken for a session: it enters ASSEMBLING with the session's next segment number (R102, R104). -/
def takeSlot (s : State) (i : Nat) (r : Part) : State :=
  (s.setSlot i { Slot.free with state := .assembling, owner := .row r, header := { blankHeader with part := r, number := (s.row r).nextSegment } }).setRow r
    { s.row r with nextSegment := (s.row r).nextSegment + 1 }

/-- A slot taken for the copy of port `p`'s Truncate; its segment number is set at the find (R111). -/
def takeCopySlot (s : State) (i : Nat) (p : Port) (r : Part) : State :=
  s.setSlot i { Slot.free with state := .assembling, owner := .row r, header := { blankHeader with part := r }, copying := some p }

/-- The rate selector's window bytes, counted while the session is its subject (R136). -/
def countStored (s : State) (subject : Subject) (n : Nat) : State :=
  if s.wvu.rate.subject = subject then
    s.setWvu { s.wvu with rate := { s.wvu.rate with bytes := s.wvu.rate.bytes + n } }
  else s

/-- An entry of the session's next object placed in slot `i`. -/
def placeEntry (s : State) (i : Nat) (r : Part) (e : Entry) (bytes : List Byte) : State :=
  (s.setSlot i (Slot.place (s.slot i) e bytes ((s.row r).firstObject + (s.row r).admitted) (s.row r).marksNext)).countStored (.session r) bytes.length

/-- Closure of a row's assembling slot: READY with an entry, FREE without (R108); the number of a slot freed empty is the session's next again, so that the segments a session writes are numbered without a gap (R104, R126; DEDUCED, log entry 59). -/
def closeSlot (s : State) (r : Part) : State :=
  match s.assemblingOf r with
  | none => s
  | some i =>
    if (s.slot i).entries.isEmpty then (s.setSlot i Slot.free).setRow r { s.row r with nextSegment := (s.slot i).header.number }
    else
      ((s.setSlot i { s.slot i with state := .ready }).setRow r { s.row r with unverified := (s.row r).unverified + 1 }).refreshRow r

/-- Closure when a placement leaves 512 entries or room below 8 (R108). -/
def closeSlotIfFull (s : State) (r : Part) : State :=
  match s.assemblingOf r with
  | none => s
  | some i => if (s.slot i).entries.length = 512 || (s.slot i).room < 8 then s.closeSlot r else s

/-! ## Pins, releases and invalidations -/

/-- A lookup hit: the port's pin is raised and the last use set (R112, R142). -/
def pinSlot (s : State) (i : Nat) (p : Port) : State :=
  (s.setSlot i { (s.slot i).setPin p true with lastUse := some s.clock }).tick

/-- The read-ahead options of the two ports (R114). -/
def readAheads (s : State) : PerPort Bool := { a := s.ports.a.options.readAhead, b := s.ports.b.options.readAhead }

/-- The pins of a port dropped, with what follows (R114, R115). -/
def dropPins (s : State) (p : Port) : State :=
  let ra := s.readAheads
  s.mapSlots (fun x => if x.pinnedBy p then Slot.afterUnpin ra (x.setPin p false) else x)

/-- The pin of a port on one slot dropped. -/
def dropPin (s : State) (i : Nat) (p : Port) : State :=
  s.setSlot i (Slot.afterUnpin s.readAheads ((s.slot i).setPin p false))

/-- Read-side slots named by a condition invalidated (R115). -/
def invalidateSlots (s : State) (ok : Slot → Bool) : State :=
  s.mapSlots (fun x => if x.readSide && ok x then Slot.invalidate x else x)

/-- FILLING slots freed (R34, R116). -/
def freeFilling (s : State) : State := s.mapSlots (fun x => if x.state == .filling then Slot.free else x)

/-- A port's read-side slots freed, and its pins on others dropped (R60, R116). -/
def freeReadSlots (s : State) (p : Port) : State :=
  (s.mapSlots (fun x => x.resetBy p)).dropPins p

/-- A row's session slots discarded (R101). -/
def discardSlots (s : State) (r : Part) : State :=
  s.mapSlots (fun x => if x.ofSession r then Slot.free else x)

end State

end Sys2Proof.Machine
end

