-- ==== Sys2Proof/Machine/Ops.lean ====
section
/-! DEFINITION. The shared operations of the access controller, the transport arbiter and the checkpoint requests: sending frames, ending turns and commands, closing and losing sessions (spec/03, spec/04, spec/07, spec/09). -/

namespace Sys2Proof.Machine

/-- The work of a port that a turn may be granted to (R62). -/
inductive PortWork where
  | drain (r : Part)
  | command
  | fill
deriving DecidableEq, Repr

/-- The port that owns a job; none for library work (R62). -/
def jobPort : Job → Option Port
  | .position p _ => some p
  | .read p => some p
  | .verify p => some p
  | .truncate p => some p
  | .drain _ p => some p
  | .fill p => some p
  | .library _ => none

/-- Whether a job is the drain of a row. -/
def isDrainOf (r : Part) : Job → Bool
  | .drain r' _ => r' == r
  | _ => false

/-- The loss reason as the host result of the Head Condition Monitor's judgement: only WRITE_FAULT reaches the clean call (R175). -/
def reachesCleanCall (x : LossReason) : Bool := x == .writeFault

/-- A read with the fall of its partition's committed end to `object` noted, where its own object lies there or above (R148). -/
def ReadState.cutAt (r : Part) (object : Nat) (x : ReadState) : ReadState :=
  if x.part = r && object ≤ x.object then { x with fallen := true } else x

namespace State

/-! ## Frames out -/

/-- A frame at the end of a port's transmit queue (R184). -/
def sendHost (s : State) (p : Port) (f : HostFrame) : State :=
  s.setPort p { s.port p with tx := (s.port p).tx ++ [f] }

/-- A library response produced (R189). -/
def sendLib (s : State) (result : LibResult) (code : Nat) (detail : LibDetail) : State :=
  s.setLp { s.lp with tx := s.lp.tx ++ [{ result := result, code := code, detail := detail }] }

/-- The response of a library command that has been taken: its command stays outstanding until it has been sent (R189). -/
def answerTaken (s : State) (result : LibResult) (code : Nat) (detail : LibDetail) : State :=
  let s := s.sendLib result code detail
  s.setLp { s.lp with unsent := some s.lp.tx.length }

/-- The end of a library command: its response is produced when it is still the outstanding one, and dropped otherwise (R187, R189). -/
def endLibrary (s : State) (c : LibCommand) (result : LibResult) (detail : LibDetail) : State :=
  if s.lp.outstanding = some c then
    (s.setLp { s.lp with outstanding := none }).answerTaken result (libCode c) detail
  else s

/-! ## Eligible work (R62) -/

/-- Command work of a port: a positioning command or Truncate that may run, a read that awaits its turn, a Verify Scan not yet granted. -/
def commandEligible (s : State) (p : Port) : Bool :=
  match (s.port p).inService with
  | none => false
  | some c =>
    match c.phase with
    | .tape => true
    | .reading =>
      (match s.rdu.reads.get p with | some r => r.phase == .awaitingTurn | none => false) ||
        (match s.rdu.scans.get p with | some x => !x.granted | none => false)
    | _ => false

/-- Whether a row has a due rewrite (R121). -/
def rewriteDue (s : State) (r : Part) : Bool := s.wvu.rewrites.any (fun e => e.row == r && e.due)

/-- A drain turn of a row: an open session with a READY segment or a rewrite due, not waiting for its stale mark. -/
def drainEligible (s : State) (r : Part) : Bool :=
  (s.row r).state.isOpen && !s.dtc.waiters.contains r && (0 < s.readyCount r || s.rewriteDue r)

/-- A posted fill, in Ready. -/
def fillEligible (s : State) (p : Port) : Bool :=
  (match s.rdu.fills.get p with | .posted .. => true | _ => false) && s.lsq.state == .ready

/-- A port's first eligible work: its drain turn, then command work, then its fill (R64). -/
def portWork (s : State) (p : Port) : Option PortWork :=
  match s.sessionOf p with
  | some r =>
    if s.drainEligible r then some (.drain r)
    else if s.commandEligible p then some .command
    else if s.fillEligible p then some .fill
    else none
  | none =>
    if s.commandEligible p then some .command
    else if s.fillEligible p then some .fill
    else none

/-- Work other than a drain turn of port `p` that is eligible (R66). -/
def otherEligible (s : State) (p : Port) : Bool :=
  s.msc.libWork.isSome || (s.portWork (otherPort p)).isSome || s.commandEligible p || s.fillEligible p

/-! ## The ends of turns -/

/-- The burst count at the end of a turn of port `p` (R64); it stays within 0 to 8 (R61). -/
def countBurst (s : State) (p : Port) : State :=
  if p = s.msc.lastServed then
    s.setMsc { s.msc with burst := if (s.portWork (otherPort p)).isSome then min 8 (s.msc.burst + 1) else 0 }
  else s

/-- The transport stops where it is; the movement in progress is reported (R71). -/
def stopTransport (s : State) : State :=
  let s := s.endMovement
  s.setMsc { s.msc with activity := .idle, motion := .stopped, scan := none }

/-- The turn in progress ends and the transport stops, also one that streams after a lane hit (R69; DESIGN CHOICE, log entry 62): the open lane record is finished (R174), after the movement is reported, so that the meter is judged before the quality (R175; DESIGN CHOICE, log entry 75), and the burst count updated (R64). -/
def endTurn (s : State) : State :=
  match s.msc.turn with
  | none => s
  | some t =>
    let s := s.stopTransport.finishRecord
    let s := s.setMsc { s.msc with turn := none, atWrite := none }
    match jobPort t.job with
    | none => s
    | some p => s.countBurst p

/-- A drain turn ends at its yield point: the transport has not left the write point, and a backhitch wait ends (R66, R130). -/
def yieldTurn (s : State) (r : Part) (p : Port) : State :=
  ((s.setWvu { s.wvu with backhitch := none }).setMsc { s.msc with turn := none, activity := .idle, atWrite := some r }).countBurst p

/-! ## Checkpoint requests (R162) -/

/-- Whether a checkpoint is in flight. -/
def checkpointInFlight (s : State) : Bool :=
  match s.dtc.reader with
  | some { kind := .checkpoint _, .. } => true
  | _ => false

/-- A checkpoint request: dropped without a copy; it joins a pending one, or becomes pending (R162). -/
def requestCheckpoint (s : State) (closing : Bool) : State :=
  match s.dtc.copy with
  | none => s
  | some _ =>
    match s.dtc.pendCheckpoint with
    | some c => s.setDtc { s.dtc with pendCheckpoint := some { c with closing := c.closing || closing } }
    | none => (s.setDtc { s.dtc with pendCheckpoint := some { since := s.clock, closing := closing } }).tick

/-- The request made by writing the interval setting: dropped while one is in flight with none pending (R162). -/
def requestCheckpointFromSetting (s : State) : State :=
  if s.checkpointInFlight && s.dtc.pendCheckpoint.isNone then s else s.requestCheckpoint false

/-! ## Session rows -/

/-- A row's stale-mark wait ended (R161): it leaves the waiters, those of a stale mark in flight among them. -/
def leaveWaiters (s : State) (r : Part) : State :=
  s.setDtc
    { s.dtc with
      waiters := s.dtc.waiters.filter (· != r)
      reader := match s.dtc.reader with
        | none => none
        | some t => some { t with waiters := t.waiters.filter (· != r) } }

/-- A row's entries removed from the verify window, the rewrite list and the completion list, and its backhitch state (R129). -/
def clearWriting (s : State) (r : Part) : State :=
  s.setWvu
    { s.wvu with
      window := s.wvu.window.filter (fun e => e.row != r)
      rewrites := s.wvu.rewrites.filter (fun e => e.row != r)
      completion := s.wvu.completion.filter (fun e => e.row != r)
      backhitch := if s.wvu.backhitch = some r then none else s.wvu.backhitch }

/-- A row's drain turn ends, and the transport no longer stands at its write point (R63, R67): a leaving procedure of the row is cut short, and a drain turn still to begin behind another row's leaving procedure is marked to end. -/
def leaveRow (s : State) (r : Part) : State :=
  match s.msc.turn with
  | some t =>
    if t.leaving = some r then s.stopTransport.finishRecord
    else if isDrainOf r t.job then
      if t.leaving.isSome then s.setMsc { s.msc with turn := some { t with stopping := true } } else s.endTurn
    else s
  | none =>
    if s.msc.atWrite = some r then
      let s := s.stopTransport.finishRecord
      s.setMsc { s.msc with atWrite := none }
    else s

/-- A row returns to None (R51): its live count is discarded (R118), it leaves the stale-mark waiters (R161), and its drain turn ends (R63). -/
def rowToNone (s : State) (r : Part) : State :=
  let s := (s.clearWriting r).leaveWaiters r
  let s := s.setWvu { s.wvu with live := s.wvu.live.set r none }
  (s.setRow r Row.empty).leaveRow r

/-- A Closing row with nothing unverified returns to None with a checkpoint request (R54). -/
def closingDone (s : State) (r : Part) : State :=
  if (s.row r).state = .closing && (s.row r).unverified = 0 then (s.rowToNone r).requestCheckpoint false else s

/-- Closing a row in Streaming or Held (R54): the hold timer stops, the assembling slot closes, and the row is Closing, or None when nothing is left to write. -/
def closeNow (s : State) (r : Part) : State :=
  if (s.row r).state.isActive then
    let s := s.closeSlot r
    let s := s.setRow r { s.row r with state := .closing, holdTimer := none, closeDue := .no }
    s.closingDone r
  else s

/-- Whether a record of the row's session is being placed (R109). -/
def placingFor (s : State) (r : Part) : Bool :=
  (match s.sbm.placing.a with | some g => g.row == r | none => false) ||
    (match s.sbm.placing.b with | some g => g.row == r | none => false)

/-- A closure asked for (R54): it waits for a placement in progress (R109), and, where `forWrite`, for the holder's write in service (R50); one that waits for a placement already is not put off to a later write's end. While a Port Cut's or port reset's closure waits for a placement, the hold timer, which the write had stopped, stays stopped (R53, R59, R60; DESIGN CHOICE, log entry 87). -/
def requestClose (s : State) (r : Part) (forWrite : Bool) : State :=
  if (s.row r).state.isActive then
    if forWrite && s.holderWriting r && (s.row r).closeDue != .afterPlacing then s.setRow r { s.row r with closeDue := .afterWrite }
    else if s.placingFor r then s.setRow r { s.row r with closeDue := .afterPlacing }
    else s.closeNow r
  else s

/-! ## Commands of a port -/

/-- The EW flag of a response: for the writes and Truncate the partition resolved, for Sync its session's or its context's, false for the others (R120). A write or Truncate that ends before it has resolved a partition carries false (DESIGN CHOICE, log entry 79). -/
def responseEw (s : State) (p : Port) (c : InService) : Bool :=
  match c.cmd with
  | .writeRecord _ => (match c.part with | some r => s.ew r | none => false)
  | .writeMarks .. => (match c.part with | some r => s.ew r | none => false)
  | .truncate => (match c.part with | some r => s.ew r | none => false)
  | .sync => (match s.sessionOf p with | some r => s.ew r | none => s.contextEw p)
  | _ => false

/-- The reason detail an outcome record keeps (R43): the attention kinds, READ_ONLY, CLOSING, the true length with LONG_RECORD, the residual count; absent for any other result. -/
def outcomeDetail (result : HostResult) (detail : Detail) : Detail :=
  match detail with
  | .none => .none
  | .attention x => .attention x
  | .readOnly => .readOnly
  | .closing => .closing
  | .residual n => .residual n
  | .rawLength n => if result = .longRecord then .rawLength n else .none
  | .scan .. => .none
  | .produced _ => .none
  | .options _ => .none

/-- A port's outcome record written (R43, R44). -/
def writeOutcome (s : State) (p : Port) (code tag : Nat) (result : HostResult) (detail : Detail) : State :=
  s.setPort p
    { s.port p with
      outcome := some
        { command := code, tag := tag, result := result, detail := outcomeDetail result detail,
          position := (s.context p).map (fun c => { logical := c.logical, object := c.object, atEnd := c.atEnd }),
          ew := s.contextEw p } }

/-- The holder's hold timer restarts at the end of a write command, and a closure that waited for that end is made (R50, R53). -/
def afterWrite (s : State) (p : Port) : State :=
  match s.sessionOf p with
  | none => s
  | some r =>
    if (s.row r).state.isActive then
      let s := (s.setRow r { s.row r with holdTimer := some s.sst.settings.appendHold }).refreshRow r
      if (s.row r).closeDue != .no && !s.placingFor r then s.closeNow r else s
    else s

/-- The session row of a port judged again after its Sync has ended (R53). -/
def refreshSession (s : State) (p : Port) : State :=
  match s.sessionOf p with
  | none => s
  | some r => s.refreshRow r

/-- The end of the command in service by completion or refusal (R42): the response and the outcome record together, the place and any credit emptied, and the session's hold timer and state judged after a write or a Sync. A Truncate leaves its new session Streaming (R135). -/
def endCommand (s : State) (p : Port) (result : HostResult) (detail : Detail) : State :=
  match (s.port p).inService with
  | none => s
  | some c =>
    let s := s.sendHost p (.response c.tag result (s.responseEw p c) (s.context p) detail)
    let s := s.writeOutcome p (cmdCode c.cmd) c.tag result detail
    let s := s.setPort p { s.port p with inService := none, credit := none }
    if isWrite c.cmd then s.afterWrite p else if c.cmd = .sync then s.refreshSession p else s

/-- The context a command in service works from: the port's, or, where a Grant has made that Lost since, the one the command was taken with (R48; DEDUCED, log entry 67). -/
def workContext (s : State) (p : Port) : Option Context :=
  match s.context p with
  | some c => some c
  | none => (s.port p).inService.bind (·.start)

/-- The phase of the command in service changed. -/
def setPhase (s : State) (p : Port) (x : Phase) : State :=
  match (s.port p).inService with
  | none => s
  | some c => s.setPort p { s.port p with inService := some { c with phase := x } }

/-- A port's record intake replaced (R85). -/
def setIntake (s : State) (p : Port) (x : Intake) : State :=
  s.setRcx { s.rcx with intake := s.rcx.intake.set p x }

/-- A port's record leaves the packing engine and its queue, and its intake is emptied (R93). -/
def dropRecord (s : State) (p : Port) : State :=
  s.setRcx
    { s.rcx with
      intake := s.rcx.intake.set p .empty
      packQueue := s.rcx.packQueue.filter (· != p)
      packer := match s.rcx.packer with
        | none => none
        | some k => if k.port = p then none else some k }

/-- A port's expansion requests leave the engine and its queue (R98). -/
def dropExpansions (s : State) (p : Port) : State :=
  s.setRcx
    { s.rcx with
      expQueue := s.rcx.expQueue.filter (fun q => q.port != p)
      expander := match s.rcx.expander with
        | none => none
        | some e => if e.req.port = p then none else some e }

/-- A port's waiting slot requests of a reason withdrawn (R102). -/
def withdrawRequests (s : State) (p : Port) (reason : SlotReason) : State :=
  s.setSbm { s.sbm with requests := s.sbm.requests.filter (fun q => !(q.port == p && q.reason == reason)) }

/-- A placement in progress for a row ends without its record: its intake is emptied, and a record whose first fragment has been placed counts as admitted (R109). -/
def dropPlacing (s : State) (r : Part) (p : Port) : State :=
  match s.sbm.placing.get p with
  | none => s
  | some g =>
    if g.row = r then
      let s := (s.setSbm { s.sbm with placing := s.sbm.placing.set p none }).setIntake p .empty
      if g.begun then s.setRow r { s.row r with admitted := (s.row r).admitted + 1 } else s
    else s

/-- A context standing above a partition's committed end is moved to it (R129). -/
def contextToEnd (s : State) (r : Part) (p : Port) : State :=
  match s.context p with
  | none => s
  | some c =>
    if s.contextIn p r && s.committedObjects r < c.object then
      s.setContext p (some { c with object := s.committedObjects r, marks := s.committedMarks r, atEnd := true })
    else s

/-- The directory copy's entry for a partition changed. -/
def setPartDir (s : State) (r : Part) (f : PartDir → PartDir) : State :=
  match s.dtc.copy with
  | none => s
  | some d =>
    match d.parts[r.val]? with
    | none => s
    | some x => s.setDtc { s.dtc with copy := some { d with parts := d.parts.set r.val (f x) } }

/-- A cut made to the copy: the tag is behind, and no transaction in flight carries it (R157, R161, R164). -/
def noteCut (s : State) : State :=
  s.setDtc
    { s.dtc with
      tagBehind := true
      reader := match s.dtc.reader with
        | none => none
        | some t => some { t with cutSince := true } }

/-! ## The loss of a session (R129, R56) -/

/-- The lowest-numbered write-side slot of a session that holds an entry, by its header (R129). -/
def firstLostHeader (s : State) (r : Part) : Option SegHeader :=
  match s.lowestSegment r (fun x => !x.entries.isEmpty) with
  | none => none
  | some n => (s.writeSlotOf r n).map (fun i => (s.slot i).header)

/-- The first object not on tape: of the lowest slot with an entry, or the session's next object when nothing is left (R129). -/
def firstLost (s : State) (r : Part) : Nat :=
  ((s.firstLostHeader r).bind (·.firstObject)).getD ((s.row r).firstObject + (s.row r).admitted)

/-- A partition's committed end has come down to `object`: the reads of objects there or above note it (R148). -/
def noteFallen (s : State) (r : Part) (object : Nat) : State :=
  s.setRdu { s.rdu with reads := { a := s.rdu.reads.a.map (ReadState.cutAt r object), b := s.rdu.reads.b.map (ReadState.cutAt r object) } }

/-- The directory's object count lowered to the first lost object, after a Truncate (R129). -/
def lowerDirectory (s : State) (r : Part) (object marks : Nat) : State :=
  if object < s.committedObjects r then
    ((s.setPartDir r (fun d => { d with objects := object, marks := marks })).noteCut).noteFallen r object
  else s

/-- The holder's command that waits on a lost session (R55, R92, R109, R129, R131, R133): it ends WRITE_FAULT, or is marked so that it ends later. -/
def loseCommand (s : State) (r : Part) (p : Port) : State :=
  match (s.port p).inService with
  | none => s
  | some c =>
    match c.phase with
    | .waitClose r' => if r' = r then s.setPhase p .waitFailed else s
    | .awaitVerify r' n => if r' = r && s.committedSegments r ≤ n then s.endCommand p .writeFault .none else s
    | .awaitSync r' => if r' = r then s.endCommand p .writeFault .none else s
    | .placingMarks _ => if c.part = some r then s.endCommand p .writeFault .none else s
    | .placing => if c.part = some r then s.endCommand p .writeFault .none else s
    | .awaitSlot =>
      if isWrite c.cmd && c.part = some r then (s.setIntake p .empty).endCommand p .writeFault .none else s
    | .receiving => if c.part = some r then s.setPort p { s.port p with inService := some { c with lost := true } } else s
    | .compressing => if c.part = some r then s.setPort p { s.port p with inService := some { c with lost := true } } else s
    | _ => s

/-- A session is lost (R129): its segments leave the Write and Verify Unit and their slots are discarded, the directory is lowered where it stood above the first lost object, the row goes to Failed with the deferred fault added to its holder's attention set (R56), contexts move to the committed end, the drain turn ends, and the holder's waiting command ends. What the end of the turn reports to the HCM is judged before the loss (R175; DESIGN CHOICE, log entry 75). -/
def loseSession (s : State) (r : Part) (reason : LossReason) : State :=
  match (s.row r).holder with
  | none => s
  | some p =>
    if (s.row r).state.isOpen then
      let lost := s.firstLost r
      let marks := ((s.firstLostHeader r).bind (·.marksBefore)).getD (s.committedMarks r)
      let fault : DeferredFault := { part := r, firstLost := lost, reason := reason }
      let s := ((s.clearWriting r).discardSlots r).leaveWaiters r
      let s := s.setSbm { s.sbm with requests := s.sbm.requests.filter (fun q => !(q.row == r && q.reason != .truncate)) }
      let s := (s.dropPlacing r .a).dropPlacing r .b
      let s := s.lowerDirectory r lost marks
      let s := s.setRow r { s.row r with state := .failed, holdTimer := none, unverified := 0, fault := some fault, closeDue := .no }
      let s := (s.addFault p fault).setLsq { (s.addFault p fault).lsq with writeFault := true }
      let s := (s.contextToEnd r .a).contextToEnd r .b
      let s := s.leaveRow r
      let s := if reachesCleanCall reason then s.judgeFault else s
      s.loseCommand r p
    else s

end State

end Sys2Proof.Machine
end

