-- ==== Sys2Proof/Machine/Motion.lean ====
section
/-! DEFINITION. The transport: write points (R6, R68), relocations (R69), streaming, the stop of a moving transport (R70), header scan starts (R75), and the targets and arrivals of positioning commands (R77 to R84). -/

namespace Sys2Proof.Machine

/-- The class of a relocation (R69): a lane hit lies ahead on the head's lane, at most 1,024 stripe slots away. -/
def isHit (head target : Place) : Bool :=
  head.lane == target.lane && distance head.coord target.coord ≤ 1024
    && (if laneForward head.lane then head.coord ≤ target.coord else target.coord ≤ head.coord)

/-- A place `d` slots from coordinate `x` toward coordinate `y` of a lane. -/
def toward (lane x y d : Nat) : Place := { lane := lane, coord := if x ≤ y then x + d else x - d }

/-- The in-lane offset of a place. -/
def Place.offset (x : Place) : Nat := if x.past then laneSlots else offsetOf x.lane x.coord

/-- The last index entry that a condition admits, or the first entry (R75). -/
def lastEntryWhere (l : List IndexEntry) (ok : IndexEntry → Bool) : Option IndexEntry :=
  match (l.filter ok).getLast? with
  | some e => some e
  | none => l.head?

/-- The entry of an index after entry `e` (R75). -/
def entryAfter (l : List IndexEntry) (e : IndexEntry) : Option IndexEntry := l.find? (fun x => e.lane < x.lane)

/-- Where a header scan for object `p` starts by the lane index: the lane, the in-lane offset and the first segment expected (R75). -/
def indexStartObject (l : List IndexEntry) (p : Nat) : Option (Nat × Nat × Nat) :=
  match lastEntryWhere l (fun e => e.firstObject < p) with
  | none => none
  | some e =>
    match entryAfter l e with
    | none => some (e.lane, 0, e.firstSegment)
    | some n =>
      if n.firstObject = p then
        some (e.lane, 16 * (n.firstSegment - 4 - e.firstSegment), max (n.firstSegment - 4) e.firstSegment)
      else some (e.lane, 0, e.firstSegment)

/-- Where a header scan for mark `j` starts by the lane index (R75). -/
def indexStartMark (l : List IndexEntry) (j : Nat) : Option (Nat × Nat × Nat) :=
  (lastEntryWhere l (fun e => e.marksBefore ≤ j)).map (fun e => (e.lane, 0, e.firstSegment))

/-- Whether the landmark replaces the start of a scan that expects segment `n` first (R75). -/
def landmarkServes (m : Landmark) (r : Part) (n : Nat) : ScanTarget → Bool
  | .object p => m.part == r && n ≤ m.segment && (m.firstObject < p || (m.firstObject == p && m.begins))
  | .mark j => m.part == r && n ≤ m.segment && m.marksBefore ≤ j

/-- The position in an entry table, whose first entry describes object `first`, of the entry that begins object `p` (R76). -/
def findObject (first : Nat) (l : List Entry) (p : Nat) : Option Nat :=
  if p < first then none
  else
    match l[p - first]? with
    | none => none
    | some e => if beginsObject e then some (p - first) else none

/-- The position in an entry table of the mark entry preceded by exactly `j` marks, `before` of them below the table (R76). -/
def findMark (before : Nat) (j : Nat) : List Entry → Nat → Option Nat
  | [], _ => none
  | e :: rest, i => if isMark e then (if before = j then some i else findMark (before + 1) j rest (i + 1)) else findMark before j rest (i + 1)

/-- What a header scan finds in a segment: the object and the marks before it (R76). -/
def findIn (first before : Nat) (l : List Entry) : ScanTarget → Option (Nat × Nat)
  | .object p => (findObject first l p).map (fun i => (p, before + markCount (l.take i)))
  | .mark j => (findMark before j l 0).map (fun i => (first + i, j))

namespace State

/-! ## Write points (R6, R68) -/

/-- The write point of a row: the relative lane and the in-lane offset, 48,000 when the lane has no slot left (R6). -/
def writePoint (s : State) (r : Part) : Nat × Nat :=
  match s.wvu.live.get r with
  | some l => (l.lane, l.count - laneSlots * l.lane)
  | none =>
    let u := s.recordedUsed r
    if u = laneSlots * s.partLanes r then (s.partLanes r - 1, laneSlots) else (u / laneSlots, u % laneSlots)

/-- The free stripe slots on the write point's lane. -/
def laneFree (s : State) (r : Part) : Nat := laneSlots - (s.writePoint r).2

/-- The place of a row's write point; a full lane's is its last slot. -/
def writePlace (s : State) (r : Part) : Place := targetOf (s.partFirst r + (s.writePoint r).1) (s.writePoint r).2

/-- Where the head stands at a row's write point: on a full lane at its end, where it has streamed to (R6, R130). -/
def writeHead (s : State) (r : Part) : Place := placeOf (s.partFirst r + (s.writePoint r).1) (s.writePoint r).2

/-- The place of a partition slot offset (R5). -/
def slotPlace (s : State) (r : Part) (u : Nat) : Place := placeOf (s.partFirst r + u / laneSlots) (u % laneSlots)

/-- The place of the write point given by the recorded used-slot count (R6, R77); that of a full partition is its last slot. -/
def recordedPlace (s : State) (r : Part) : Place :=
  if s.recordedUsed r = laneSlots * s.partLanes r then targetOf (s.partFirst r + (s.partLanes r - 1)) laneSlots
  else s.slotPlace r (s.recordedUsed r)

/-- The partition slot offset of an in-lane offset on a physical lane (R5). -/
def partOffset (s : State) (r : Part) (lane o : Nat) : Nat := slotOffset (lane - s.partFirst r) o

/-- Whether a lane is the partition's last. -/
def isLastLane (s : State) (r : Part) (lane : Nat) : Bool := s.partFirst r + s.partLanes r ≤ lane + 1

/-! ## Movement -/

/-- A change of what the transport does. -/
def setActivity (s : State) (x : Activity) : State := s.setMsc { s.msc with activity := x }

/-- The transport streams in the activity given (R61). -/
def stream (s : State) (x : Activity) : State := s.setMsc { s.msc with activity := x, motion := .streaming }

/-- A relocation begins: the movement before it is reported, and its class is settled (R69, R71). -/
def relocate (s : State) (target : Place) (next : Next) : State :=
  let s := s.endMovement
  s.setMsc { s.msc with motion := .relocating, activity := .relocating s.msc.head target (isHit s.msc.head target) next }

/-- The slots the streaming head passes on its way to in-lane offset `o` (R71). -/
def slotsTo (s : State) (o : Nat) : Nat := o - s.msc.head.offset

/-- The streaming head passes on to in-lane offset `o` of its lane: the slots passed are counted (R71). -/
def headTo (s : State) (o : Nat) : State :=
  s.setMsc { s.msc with head := placeOf s.msc.head.lane o, travel := s.msc.travel + s.slotsTo o }

/-- The head moves laterally to the start of the next lane, at the same end of the tape (R76, R128): the open lane record is finished (R174), judged after the movement (R175; DESIGN CHOICE, log entry 75). -/
def nextLane (s : State) : State :=
  let s := ((s.headTo laneSlots).endMovement).finishRecord
  s.setMsc { s.msc with head := placeOf (s.msc.head.lane + 1) 0 }

/-- Where a stop leaves a moving transport, and the slots passed in the movement in progress until then: a free value within the bounds of R70. A relocation stops between its start and its target, a miss on either lane; a streaming head between its last known place and its lane's end. -/
def stopPlace (s : State) : Place × Nat :=
  let x := Config.stopChoice s.free
  match s.msc.activity with
  | .relocating start target hit _ =>
    let d := distance start.coord target.coord
    if hit || start.lane = target.lane then (toward target.lane start.coord target.coord (x % (d + 1)), x % (d + 1))
    else if x % 2 = 0 then (start, 0)
    else (toward target.lane start.coord target.coord (x / 2 % (d + 1)), x / 2 % (d + 1))
  | _ =>
    if s.msc.motion = .streaming then
      let d := x % (s.slotsTo laneSlots + 1)
      (placeOf s.msc.head.lane (s.msc.head.offset + d), s.msc.travel + d)
    else (s.msc.head, s.msc.travel)

/-- Whether the transport moves. -/
def moving (s : State) : Bool := s.msc.motion == .streaming || s.msc.motion == .relocating

/-- Whether a relocation to another lane is stopped past its lateral move: on the lane to which that takes the head (R69, R70). -/
def lateralDone (s : State) : Bool :=
  match s.msc.activity with
  | .relocating start _ _ _ => s.stopPlace.1.lane != start.lane
  | _ => false

/-- A moving transport is stopped where the free value leaves it, and its movement is reported up to the stop (R34, R70, R71). A lateral move already made has finished the open lane record (R174), judged before the travel (R175; DESIGN CHOICE, log entry 75). A cleaning run's movement is not counted (R180). -/
def haltTransport (s : State) : State :=
  if s.moving && s.msc.activity != .cleaning then
    let x := s.stopPlace
    let s := if s.lateralDone then s.finishRecord else s
    let s := s.setFree (s.free + 1)
    (s.setMsc { s.msc with head := x.1, travel := x.2 }).stopTransport
  else s.stopTransport

/-- Whether the head stands at the first stripe of the segment whose header it read last (R74). -/
def atSegment (s : State) : Bool :=
  match s.msc.landmark with
  | none => false
  | some m => s.msc.head == placeOf m.lane m.offset

/-- A header scan stopped by a Port Cut or a port reset: it stops at the end of the segment it is reading (R83); between segments, where the free value leaves it (log entry 44). -/
def haltScan (s : State) : State :=
  if s.atSegment then (s.headTo (s.msc.head.offset + 16)).stopTransport else s.haltTransport

/-! ## Header scans (R75) -/

/-- The start of a header scan: its place and the first segment it expects, by the lane index or the landmark. A partition with an empty index is scanned from its first lane. -/
def scanStart (s : State) (r : Part) (target : ScanTarget) : Place × Nat :=
  let l := ((s.partDir r).map (·.index)).getD []
  let x :=
    match target with
    | .object p => (indexStartObject l p).getD (s.partFirst r, 0, 0)
    | .mark j => (indexStartMark l j).getD (s.partFirst r, 0, 0)
  match s.msc.landmark with
  | some m => if landmarkServes m r x.2.2 target then (placeOf m.lane m.offset, m.segment) else (placeOf x.1 x.2.1, x.2.2)
  | none => (placeOf x.1 x.2.1, x.2.2)

/-- A header scan begins: the head relocates to its start (R75). -/
def beginScan (s : State) (r : Part) (target : ScanTarget) : State :=
  let x := s.scanStart r target
  let s := s.setMsc { s.msc with scan := some { part := r, target := target, expected := x.2, taken := [] } }
  s.relocate x.1 .scan

/-- The landmark replaced by a segment on the head's lane (R74). -/
def setLandmark (s : State) (r : Part) (lane o : Nat) (h : SegHeader) (l : List Entry) : State :=
  s.setMsc
    { s.msc with
      landmark := some
        { part := r, lane := lane, offset := o, segment := h.number, firstObject := h.firstObject.getD 0,
          marksBefore := h.marksBefore.getD 0, begins := (l.head?.map beginsObject).getD false } }

/-- The landmark becomes absent when a condition names it (R17, R61, R135). -/
def dropLandmark (s : State) (bad : Landmark → Bool) : State :=
  match s.msc.landmark with
  | none => s
  | some m => if bad m then s.setMsc { s.msc with landmark := none } else s

/-! ## Positioning commands (R77 to R84) -/

/-- The committed end as an aim, with its place (R77, R84): object 0 when nothing is committed. -/
def aimEnd (s : State) (r : Part) : Aim :=
  if s.committedObjects r = 0 then .bot else .theEnd (s.committedObjects r) (s.committedMarks r) (s.recordedPlace r)

/-- The goal at object `p` of a partition, by the table of R77. -/
def aimAt (s : State) (r : Part) (p : Nat) : Aim :=
  if p = 0 then .bot
  else if p < s.committedObjects r then .object p
  else s.aimEnd r

/-- The goal of a Locate (R78). -/
def goalLocate (s : State) (r : Part) (l p : Nat) : Goal :=
  { part := r, logical := l, aim := s.aimAt r p, wanted := p, marksCounted := false, spacing := false, validates := true,
    result := if s.committedObjects r < p then .endOfData else .ok, residual := none }

/-- The goal of a Space Objects from object `p` (R79). A backward one from a kept context (log entry 67) whose target lies at or beyond an end that has fallen before the grant goes to that end and ends OK (DESIGN CHOICE, log entry 88). -/
def goalSpaceObjects (s : State) (r : Part) (l p : Nat) (backward : Bool) (n : Nat) : Goal :=
  let c := s.committedObjects r
  let goal := fun (aim : Aim) (wanted : Nat) (result : HostResult) (residual : Option Nat) =>
    { part := r, logical := l, aim := aim, wanted := wanted, marksCounted := false, spacing := true, validates := false, result := result, residual := residual : Goal }
  if backward then
    if p < n then goal .bot 0 .beginning (some (n - p)) else goal (s.aimAt r (p - n)) (p - n) .ok none
  else if c < p + n then goal (s.aimEnd r) (p + n) .endOfData (some (p + n - c))
  else goal (s.aimAt r (p + n)) (p + n) .ok none

/-- The goal of a Space Marks from `m` marks (R80). A backward one from a kept context (log entry 67) whose target mark lies at or beyond an end that has fallen before the grant goes to that end and ends END_OF_DATA with a residual (DESIGN CHOICE, log entry 88). -/
def goalSpaceMarks (s : State) (r : Part) (l m : Nat) (backward : Bool) (n : Nat) : Goal :=
  let k := s.committedMarks r
  let goal := fun (aim : Aim) (wanted : Nat) (result : HostResult) (residual : Option Nat) =>
    { part := r, logical := l, aim := aim, wanted := wanted, marksCounted := true, spacing := true, validates := false, result := result, residual := residual : Goal }
  if backward then
    if m < n then goal .bot 0 .beginning (some (n - m))
    else if m - n < k then goal (.mark (m - n) false) (m - n) .ok none
    else goal (s.aimEnd r) (m - n) .endOfData (some (m - n - k))
  else if k < m + n then goal (s.aimEnd r) (m + n) .endOfData (some (m + n - k))
  else goal (.mark (m + n - 1) true) (m + n) .ok none

/-- The goal of a Seek End (R81). -/
def goalSeekEnd (s : State) (r : Part) (l : Nat) : Goal :=
  { part := r, logical := l, aim := s.aimEnd r, wanted := s.committedObjects r, marksCounted := false, spacing := false, validates := false, result := .ok, residual := none }

/-- The goal of a Rewind (R82). -/
def goalRewind (r : Part) (l : Nat) : Goal :=
  { part := r, logical := l, aim := .bot, wanted := 0, marksCounted := false, spacing := false, validates := true, result := .ok, residual := none }

/-- The motion a goal asks for (R77): a relocation to its place, or a header scan. -/
def moveToGoal (s : State) (g : Goal) : State :=
  match g.aim with
  | .bot => s.relocate (placeOf (s.partFirst g.part) 0) .goal
  | .theEnd _ _ place => s.relocate place .goal
  | .object p => s.beginScan g.part (.object p)
  | .mark j _ => s.beginScan g.part (.mark j)

/-- A residual count as a result field (R43). -/
def residualDetail : Option Nat → Detail
  | none => .none
  | some n => .residual n

/-- The residual of a space that ends at a fallen end, counted from what it asked for (R84). -/
def fallenResidual (s : State) (g : Goal) : Option Nat :=
  if g.spacing then some (g.wanted - (if g.marksCounted then s.committedMarks g.part else s.committedObjects g.part)) else none

/-- The context a positioning command writes at its target (R73, R83): one that a Grant has made Lost stays Lost but under a Locate or a Rewind (R49; DEDUCED, log entry 67). -/
def moveContext (s : State) (p : Port) (g : Goal) (object marks : Nat) (atEnd : Bool) : State :=
  if g.validates || (s.context p).isSome then
    s.setContext p (some { logical := g.logical, object := object, marks := marks, atEnd := atEnd })
  else s

/-- A positioning command reaches its target at an object with the marks before it (R83, R84): the context is written, the command ends, and the turn ends. An end that has fallen below the target, by a Truncate or by the loss of a session that a Truncate had opened (R129), ends it END_OF_DATA at that end, but a header scan that no longer finds its object fails before it arrives (R76; DESIGN CHOICE, log entry 94). -/
def arriveAt (s : State) (p : Port) (g : Goal) (object marks : Nat) : State :=
  let c := s.committedObjects g.part
  if c < object then
    let s := s.moveContext p g c (s.committedMarks g.part) true
    (s.endCommand p .endOfData (residualDetail (s.fallenResidual g))).endTurn
  else
    let s := s.moveContext p g object marks (object = c)
    (s.endCommand p g.result (residualDetail g.residual)).endTurn

/-- A target reached without a scan (R77). -/
def arrive (s : State) (p : Port) (g : Goal) : State :=
  match g.aim with
  | .theEnd objects marks _ => s.arriveAt p g objects marks
  | _ => s.arriveAt p g 0 0

end State

end Sys2Proof.Machine
end

