-- ==== Sys2Proof/Machine/Writing.lean ====
section
/-! DEFINITION. The Write and Verify Unit: the choice of the next write (R121), writing (R122), outcomes (R123 to R126), retries and lane ends (R127, R128), backhitches (R130) and the rate selector (R136 to R138). -/

namespace Sys2Proof.Machine

/-- A rewrite entry's place in the order of the list: by segment, then by stripe (R117). -/
def rewriteBefore (x y : RewriteEntry) : Bool := x.segment < y.segment || (x.segment == y.segment && x.stripe ≤ y.stripe)

/-- An entry put in its place on the rewrite list (R117). -/
def insertRewrite (e : RewriteEntry) : List RewriteEntry → List RewriteEntry
  | [] => [e]
  | x :: rest => if rewriteBefore e x then e :: x :: rest else x :: insertRewrite e rest

/-- A segment put in its place on the completion list (R117). -/
def insertCompleted (e : Completed) : List Completed → List Completed
  | [] => [e]
  | x :: rest => if e.segment ≤ x.segment then e :: x :: rest else x :: insertCompleted e rest

/-- The failed stripes of a set, in order. -/
def failedStripes (x : StripeSet) : List Nat := (List.range 16).filter (fun i => x.getLsbD i)

/-- The speeds of the levels in positions per second (R136). -/
def levelSpeed : Level → Nat
  | .l1 => 12
  | .l2 => 16
  | .l3 => 20
  | .l4 => 26
  | .l5 => 32

/-- The order of the levels. -/
def levelRank : Level → Nat
  | .l1 => 1
  | .l2 => 2
  | .l3 => 3
  | .l4 => 4
  | .l5 => 5

/-- One level lower, L1 staying at L1 (R138). -/
def levelDown : Level → Level
  | .l1 => .l1
  | .l2 => .l1
  | .l3 => .l2
  | .l4 => .l3
  | .l5 => .l4

/-- The higher of two levels. -/
def levelMax (x y : Level) : Level := if levelRank x < levelRank y then y else x

/-- The level a review chooses for the window bytes `b`: the lowest whose speed times 8,388,608 is at least 17 × b, or L5 (R137). -/
def chooseLevel (b : Nat) : Level :=
  ([Level.l1, .l2, .l3, .l4].find? (fun l => 17 * b ≤ levelSpeed l * 8388608)).getD .l5

/-- A review of the rate (R137): the choice acts on the level, and a new window begins for the same subject. -/
def Rate.review (x : Rate) : Rate :=
  let c := chooseLevel x.bytes
  let y := { x with streamed := 0, bytes := 0, backhitches := 0 }
  if levelRank x.level < levelRank c then { y with level := c, pendingLower := none }
  else if c = x.level then { y with pendingLower := none }
  else
    match x.pendingLower with
    | none => { y with pendingLower := some c }
    | some d => { y with level := levelMax c d, pendingLower := none }

/-- A backhitch on the selector (R138): the second of a window lowers the level by one. -/
def Rate.backhitch (x : Rate) : Rate :=
  if x.backhitches = 0 then { x with backhitches := 1 }
  else { x with level := levelDown x.level, pendingLower := none, backhitches := 0 }

/-- Streaming begins for a subject: another subject starts the window afresh (R136). -/
def Rate.begin (x : Rate) (subject : Subject) : Rate :=
  if x.subject = subject then x
  else { x with subject := subject, streamed := 0, bytes := 0, backhitches := 0, pendingLower := none }

namespace State

/-- The rate selector's subject set as streaming begins (R136). -/
def rateFor (s : State) (subject : Subject) : State := s.setWvu { s.wvu with rate := s.wvu.rate.begin subject }

/-- The session at whose write point the turn in progress works: the one being left, or the drain turn's own (R66, R67). -/
def writingRow (s : State) : Option Part :=
  match s.msc.turn with
  | none => none
  | some t =>
    match t.leaving with
    | some r => some r
    | none =>
      match t.job with
      | .drain r _ => some r
      | _ => none

/-- Whether the turn in progress is leaving the row's write point (R67). -/
def isLeaving (s : State) (r : Part) : Bool :=
  match s.msc.turn with
  | none => false
  | some t => t.leaving == some r

/-- A drain demand of a session (R130): its row is Closing, or its holder waits on it with a Sync, a Write Marks with its sync flag, or a Verified-mode write. -/
def drainDemand (s : State) (r : Part) : Bool :=
  (s.row r).state == .closing ||
    (match (s.row r).holder with
    | none => false
    | some p =>
      match (s.port p).inService with
      | none => false
      | some c =>
        (match c.phase with
        | .awaitSync r' => r' == r
        | .awaitVerify r' _ => r' == r
        | _ => false) ||
          (match c.cmd with
          | .writeMarks _ true => c.part == some r
          | _ => false))

/-- Whether any writing of a row awaits its outcome (R67). -/
def outstanding (s : State) (r : Part) : Bool :=
  s.wvu.window.any (fun e => e.row == r) || s.wvu.rewrites.any (fun e => e.row == r && !e.due)

/-- The first due rewrite of a row (R121). -/
def firstDue (s : State) (r : Part) : Option RewriteEntry := s.wvu.rewrites.find? (fun e => e.row == r && e.due)

/-- The lowest READY segment of a row; while the row's write point is being left, of its retries alone (R67, R121). -/
def nextReady (s : State) (r : Part) : Option Nat :=
  s.lowestSegment r (fun x => x.state == .ready && (!s.isLeaving r || 0 < x.header.attempt))

/-- The yield point of a drain turn (R66): other work is eligible, and nothing is READY or due, or 16 segments have been written. -/
def atYieldPoint (s : State) (r : Part) (p : Port) (written : Nat) : Bool :=
  s.otherEligible p && (!(0 < s.readyCount r || s.rewriteDue r) || 16 ≤ written)

/-! ## Orders to the transport -/

/-- The head writes at the write point, after a relocation back to it where it does not stand there (R67, R121). -/
def orderWrite (s : State) (r : Part) (x : Order) : State :=
  if s.msc.head = s.writePlace r && s.msc.activity != .runningOut then
    (s.rateFor (.session r)).stream (.writing x)
  else s.relocate (s.writePlace r) .write

/-- The head streams onward without writing (R67, R130). -/
def runOut (s : State) : State := s.stream .runningOut

/-- A backhitch (R130): the head is brought back to the write point, 192 stripe slots are reported, and the drain turn waits. -/
def backhitch (s : State) (r : Part) : State :=
  let s := s.endMovement.reportTravel 192
  let s := s.setMsc { s.msc with head := s.writeHead r, motion := .stopped, activity := .backhitched }
  s.setWvu { s.wvu with backhitch := some r, rate := s.wvu.rate.backhitch }

/-- The lane's tail is abandoned for the partition's next lane (R6, R128); a session that has written nothing holds a live count from here on (R118; DESIGN CHOICE, log entry 64). -/
def abandonTail (s : State) (r : Part) : State :=
  let k := (s.writePoint r).1 + 1
  let s := s.nextLane
  let s := s.setWvu { s.wvu with live := s.wvu.live.set r (some { count := laneSlots * k, lane := k }) }
  s.setMsc { s.msc with head := s.writePlace r, activity := .idle }

/-! ## Retries and lane ends (R127, R128) -/

/-- The session slots to be re-queued with segment `n`: it and every written segment above it (R127). -/
def requeues (r : Part) (n : Nat) (x : Slot) : Bool := x.ofSession r && x.state == .unverified && n ≤ x.header.number

/-- A failed segment and the written segments above it are re-queued as their next attempt, or the session is lost where an attempt would rise above 2 (R127). -/
def requeue (s : State) (r : Part) (n : Nat) : State :=
  if s.sbm.slots.any (fun x => requeues r n x && 2 ≤ x.header.attempt) then s.loseSession r .writeFault
  else
    let s := s.setWvu
      { s.wvu with
        window := s.wvu.window.filter (fun e => !(e.row == r && n ≤ e.segment))
        rewrites := s.wvu.rewrites.filter (fun e => !(e.row == r && n ≤ e.segment))
        completion := s.wvu.completion.filter (fun e => !(e.row == r && n ≤ e.segment)) }
    s.mapSlots (fun x =>
      if requeues r n x then { x with state := .ready, header := { x.header with attempt := x.header.attempt + 1 } } else x)

/-- What is met at the write point's lane end when a segment does not fit and nothing is outstanding (R128): the tail is abandoned, or, without a next lane, the session is lost. -/
def laneFull (s : State) (r : Part) : State :=
  if (s.writePoint r).1 + 1 < s.partLanes r then s.abandonTail r
  else s.loseSession r .dataLostAtEnd

/-- What a drain turn does with nothing to write (R130), or a leaving procedure (R67): run out what is outstanding, or stop at the write point and wait. -/
def nothingToWrite (s : State) (r : Part) : State :=
  if s.isLeaving r then (if s.outstanding r then s.runOut else s)
  else if s.drainDemand r && s.outstanding r then s.runOut
  else s.backhitch r

/-- The port whose drain turn of the row has reached its yield point (R66). -/
def yieldDue (s : State) (r : Part) : Option Port :=
  match s.msc.turn with
  | some { job := .drain _ p, leaving := none, written := n, .. } => if s.atYieldPoint r p n then some p else none
  | _ => none

/-- The WVU's next choice for the session at whose write point the transport works (R66, R121, R128, R130). A lane end met leads to a further choice: a rewrite that does not fit has its segment re-queued first, on the partition's last lane too (R127, R128; DESIGN CHOICE, log entry 64). -/
def chooseNext (r : Part) : Nat → State → State
  | 0, s => s
  | fuel + 1, s =>
    if s.writingRow != some r then s
    else
      match s.yieldDue r with
      | some p => s.yieldTurn r p
      | none =>
        match s.firstDue r with
        | some e =>
          if 1 ≤ s.laneFree r then s.orderWrite r (.rewrite e.segment e.stripe)
          else chooseNext r fuel (s.requeue r e.segment)
        | none =>
          match s.nextReady r with
          | some n =>
            if 16 ≤ s.laneFree r then s.orderWrite r (.segment n)
            else if s.outstanding r then s.runOut
            else chooseNext r fuel (s.laneFull r)
          | none => s.nothingToWrite r

/-- Enough choices for a rewrite that does not fit, a tail, and what follows. -/
def choose (s : State) (r : Part) : State := chooseNext r 4 s

/-! ## Writing (R122) -/

/-- The segment in slot `i` is written at the write point: UNVERIFIED, in the verify window, and 16 slots consumed; the session's first segment starts the live count (R118, R122). -/
def writeSegment (s : State) (r : Part) (i : Nat) (x : Slot) : State :=
  let w := s.writePoint r
  let u := s.currentUsed r
  let s := s.setSlot i { x with state := .unverified, lane := s.partFirst r + w.1, offset := w.2 }
  let s := s.countLane true (if x.header.attempt = 0 then 16 else 0) (if x.header.attempt = 0 then 0 else 16)
  let s := s.setWvu
    { s.wvu with
      window := s.wvu.window ++ [{ row := r, segment := x.header.number, attempt := x.header.attempt, lastStripe := w.2 + 15 }]
      live := s.wvu.live.set r (some { count := u + 16, lane := w.1 }) }
  let s := s.headTo (w.2 + 16)
  s.setMsc { s.msc with turn := s.msc.turn.map (fun t => { t with written := t.written + 1 }) }

/-- The rewrite in hand is written at the write point (R122). -/
def writeRewrite (s : State) (r : Part) (segment stripe : Nat) : State :=
  let w := s.writePoint r
  let u := s.currentUsed r
  let s := s.countLane true 0 1
  let s := match s.writeSlotOf r segment with
    | none => s
    | some i => s.setSlot i { s.slot i with rewritesMade := (s.slot i).rewritesMade + 1 }
  let s := s.setWvu
    { s.wvu with
      rewrites := s.wvu.rewrites.map (fun e =>
        if e.row == r && e.segment == segment && e.stripe == stripe then { e with due := false, made := e.made + 1, offset := w.2 } else e)
      live := s.wvu.live.set r (some { count := u + 1, lane := w.1 }) }
  s.headTo (w.2 + 1)

/-! ## Outcomes (R123 to R126) -/

/-- The directory record and lane index advanced by a verified segment (R10, R11, R157); the recorded used-slot count becomes the live count (R6). -/
def advanceDir (d : PartDir) (x : Slot) (live : Nat) : PartDir :=
  let first := x.header.firstObject.getD 0
  { d with
    segments := d.segments + 1
    objects := max d.objects (objectsEnd first x.entries)
    marks := d.marks + newMarks first d.objects x.entries
    used := live
    index :=
      if (d.index.getLast?.map (·.lane)) = some x.lane then d.index
      else d.index ++ [{ lane := x.lane, firstSegment := x.header.number, firstObject := first, marksBefore := x.header.marksBefore.getD 0 }] }

/-- The at-end flag of a context of a port that does not hold the row becomes false (R72). -/
def clearAtEnd (s : State) (r : Part) (p : Port) : State :=
  match s.context p with
  | none => s
  | some c => if s.contextIn p r && !s.holds p r then s.setContext p (some { c with atEnd := false }) else s

/-- One segment verifies (R126): its slot is freed, the directory advances, and the landmark, the other port's at-end flag and the head totals follow. -/
def verifySegment (s : State) (r : Part) (i : Nat) : State :=
  let x := s.slot i
  let live := s.currentUsed r
  let s := s.setSlot i Slot.free
  let s := s.setRow r { s.row r with unverified := (s.row r).unverified - 1 }
  let s := s.setPartDir r (fun d => advanceDir d x live)
  let s := s.setLandmark r x.lane x.offset x.header x.entries
  let s := (s.clearAtEnd r .a).clearAtEnd r .b
  (s.countVerified x.header.attempt x.rewritesMade).refreshRow r

/-- The segments on the completion list that are next in number verify in turn (R126). -/
def verifyChain (r : Part) : Nat → State → State
  | 0, s => s
  | fuel + 1, s =>
    let n := s.committedSegments r
    if s.wvu.completion.any (fun e => e.row == r && e.segment == n) then
      match s.writeSlotOf r n with
      | none => s
      | some i =>
        let s := s.setWvu { s.wvu with completion := s.wvu.completion.filter (fun e => !(e.row == r && e.segment == n)) }
        verifyChain r fuel (s.verifySegment r i)
    else s

/-- A complete segment verifies when no lower-numbered one is unverified, with those behind it, or waits on the completion list (R126); a Closing row left with nothing returns to None (R54). -/
def completeSegment (s : State) (r : Part) (n : Nat) : State :=
  let s := s.setWvu { s.wvu with completion := insertCompleted { row := r, segment := n } s.wvu.completion }
  (verifyChain r 32 s).closingDone r

/-- The outcome of a segment's writing (R124): it concerns the segment and attempt at the head of the verify window, and any other is ignored (R123). -/
def takeVerify (s : State) (segment attempt : Nat) (failed : StripeSet) : State :=
  match s.wvu.window with
  | [] => s
  | e :: rest =>
    if e.segment = segment && e.attempt = attempt then
      let s := s.setWvu
        { s.wvu with
          window := rest
          rewrites := (failedStripes failed).foldl
            (fun l i => insertRewrite { row := e.row, segment := segment, stripe := i, made := 0, due := true, offset := 0 } l) s.wvu.rewrites }
      if failedStripes failed = [] then s.completeSegment e.row segment else s
    else s

/-- The entry a rewrite outcome concerns: written, and awaiting its outcome (R125). -/
def awaitedRewrite (s : State) (segment stripe : Nat) : Option RewriteEntry :=
  s.wvu.rewrites.find? (fun e => e.segment == segment && e.stripe == stripe && !e.due)

/-- The outcome of a rewrite (R125). -/
def takeRewrite (s : State) (segment stripe : Nat) (passed : Bool) : State :=
  match s.awaitedRewrite segment stripe with
  | none => s
  | some e =>
    if passed then
      let s := s.setWvu { s.wvu with rewrites := s.wvu.rewrites.filter (fun x => x != e) }
      if s.wvu.rewrites.any (fun x => x.row == e.row && x.segment == segment) then s else s.completeSegment e.row segment
    else if e.made < 3 then
      s.setWvu { s.wvu with rewrites := s.wvu.rewrites.map (fun x => if x = e then { x with due := true } else x) }
    else s.requeue e.row segment

/-- The place an outcome arrives at: 33 beyond the last stripe concerned, or the lane's end (R123). -/
def outcomeOffset (last : Nat) : Nat := min laneSlots (last + 33)

/-- The head that runs out the window has reached the place of an outcome (R67, R123). -/
def headAtOutcome (s : State) (last : Nat) : State :=
  if s.msc.activity = .runningOut && s.msc.head.offset < outcomeOffset last then s.headTo (outcomeOffset last) else s

/-- Whether the write order in progress is still the one R121 chooses first: a retry that has become READY below it, or its own re-queueing, withdraws it. -/
def orderStands (s : State) (r : Part) : Order → Bool
  | .segment n => s.nextReady r == some n
  | .rewrite n i => s.wvu.rewrites.any (fun e => e.row == r && e.segment == n && e.stripe == i && e.due)

/-- The WVU goes on after an outcome that arrived at in-lane offset `o`: while it runs out the window it chooses again, so that a segment that has become READY meanwhile takes the head back at the next outcome, before those still outstanding (R130; DESIGN CHOICE, log entry 96); a write not yet begun at that place is chosen anew, and one that no longer stands is replaced (R121, R127, R130). -/
def afterOutcome (s : State) (o : Nat) : State :=
  match s.writingRow with
  | none => s
  | some r =>
    match s.msc.activity with
    | .runningOut => s.choose r
    | .writing x => if (s.writePoint r).2 < o && s.orderStands r x then s else s.choose r
    | _ => s

/-- The outcomes that arrive together at a lane's end, in the order of writing (R123). -/
def takeOutcome (s : State) : ChannelOutcome → State
  | .verify segment attempt failed => s.takeVerify segment attempt failed
  | .rewrite segment stripe passed => s.takeRewrite segment stripe passed

end State

end Sys2Proof.Machine
end

