-- ==== Sys2Proof/Machine/Directory.lean ====
section
/-! DEFINITION. The Directory and Tag Controller's work on the copy: the stale mark's need (R160), the cut of a Truncate (R135), and the recovery scan (R166 to R168). -/

namespace Sys2Proof.Machine

/-- The counts a recovery scan has reached: those after its last applied segment, or the record's (R166). -/
def Recovery.counts (x : Recovery) : Nat × Nat :=
  match x.applied.getLast? with
  | some a => (a.objects, a.marks)
  | none => (x.start.objects, x.start.marks)

/-- What a header met in a recovery scan calls for (R167). -/
inductive HeaderAction where
  | recover
  | replace
  | finish
deriving DecidableEq, Repr

/-- The table of R167: the expected number, a later attempt of an applied segment, or any other header. -/
def Recovery.action (x : Recovery) (h : SegHeader) : HeaderAction :=
  if h.number = x.expected then .recover
  else if x.applied.any (fun a => a.number == h.number && a.attempt < h.attempt) then .replace
  else .finish

/-- The applied segments from a number upward removed (R167). -/
def Recovery.cutAt (x : Recovery) (n : Nat) : Recovery :=
  { x with applied := x.applied.filter (fun a => a.number < n), expected := n }

/-- A recovered segment applied, with the counts it brings worked out as a verify's (R157, R167). The end place is set past this copy's last stripe, also where a rewrite of an applied segment, passed in this copy's look-ahead, had carried it further: it moves past that rewrite again when the head passes it again (DESIGN CHOICE, log entry 100). -/
def Recovery.apply (x : Recovery) (h : SegHeader) (l : List Entry) (lane o endPlace : Nat) : Recovery :=
  let first := h.firstObject.getD 0
  { x with
    applied := x.applied ++
      [{ number := h.number, attempt := h.attempt, lane := lane, offset := o,
         objects := max x.counts.1 (objectsEnd first l), marks := x.counts.2 + newMarks first x.counts.1 l,
         firstObject := first, marksBefore := h.marksBefore.getD 0 }]
    expected := x.expected + 1
    endPlace := endPlace }

/-- An index with an entry for the lane of an applied segment that is not its last lane (R11, R168). -/
def indexApplied (l : List IndexEntry) (a : Applied) : List IndexEntry :=
  if (l.getLast?.map (·.lane)) = some a.lane then l
  else l ++ [{ lane := a.lane, firstSegment := a.number, firstObject := a.firstObject, marksBefore := a.marksBefore }]

/-- The partition's entry with the scan's extension applied (R168). -/
def Recovery.extend (x : Recovery) : PartDir :=
  { x.start with
    segments := x.expected
    objects := x.counts.1
    marks := x.counts.2
    used := x.endPlace
    index := x.applied.foldl indexApplied x.start.index }

/-- The physical partition numbered `n`. -/
def partNumber (n : Nat) : Part := Fin.ofNat 4 n

/-- A partition's entry cut at segment `n` (R135): the counts given, the recorded count at the copy's first stripe, and the index without the lanes after its lane, nor that lane's entry when it begins with `n`. -/
def cutDir (d : PartDir) (n object marks used lane : Nat) : PartDir :=
  { d with
    segments := n
    objects := object
    marks := marks
    used := used
    index := d.index.filter (fun e => e.lane ≤ lane && !(e.lane == lane && e.firstSegment == n)) }

namespace State

/-- The copy's Current flag. -/
def copyCurrent (s : State) : Bool := (s.dtc.copy.map (·.current)).getD false

/-- The stale mark that a session needs when it opens (R160): its row waits, and a stale mark is pending, since this moment where none was (R156). -/
def needStaleMark (s : State) (r : Part) : State :=
  if s.copyCurrent || s.dtc.tagBehind then
    s.setDtc { s.dtc with waiters := s.dtc.waiters ++ [r], pendStale := some (s.dtc.pendStale.getD s.clock) }
  else s

/-- The number of partitions of the copy. -/
def partCount (s : State) : Nat := (s.dtc.copy.map (·.parts.length)).getD 0

/-! ## The recovery scan (R166 to R168) -/

/-- The scan's end is reported (R168): a checkpoint is requested, the turn ends, and the LSQ asks for the return to lane 0 (R25). -/
def recoveryDone (s : State) : State :=
  let s := (s.setDtc { s.dtc with recovery := none }).requestCheckpoint false
  let s := s.endTurn
  s.setMsc { s.msc with libWork := some .returnHome }

/-- The scan goes on at partition `n` (R166): a partition with no room after its end is passed with nothing applied. -/
def recoverFrom : Nat → Nat → State → State
  | 0, _, s => s.recoveryDone
  | fuel + 1, n, s =>
    match s.dtc.copy.bind (fun d => d.parts[n]?) with
    | none => s.recoveryDone
    | some d =>
      if d.used = partSlots d then recoverFrom fuel (n + 1) s
      else
        let s := s.setDtc { s.dtc with recovery := some { part := n, start := d, applied := [], expected := d.segments, endPlace := d.used } }
        s.relocate (s.slotPlace (partNumber n) d.used) .recover

/-- The recovery scan begins (R166). -/
def beginRecovery (s : State) : State := recoverFrom 5 0 s

/-- A partition's scan ends with the end place given, its extension is applied, and the scan goes on (R168). -/
def endPartition (s : State) (x : Recovery) (endPlace : Nat) : State :=
  let s := s.setPartDir (partNumber x.part) (fun _ => { x with endPlace := endPlace }.extend)
  recoverFrom 5 (x.part + 1) s

/-- The recovery scan's state replaced. -/
def setRecovery (s : State) (x : Recovery) : State := s.setDtc { s.dtc with recovery := some x }

/-- A readable rewrite of an applied segment passed: the end place moves past it (R167). -/
def passRewrite (s : State) (x : Recovery) (segment attempt o : Nat) : State :=
  if x.applied.any (fun a => a.number == segment && a.attempt == attempt) then
    s.setRecovery { x with endPlace := max x.endPlace (s.partOffset (partNumber x.part) s.msc.head.lane (o + 1)) }
  else s

/-- The head crosses to the partition's next lane in the scan: an end place left behind moves to its start (R167); at the last lane's end the partition's scan ends (R168). -/
def recoveryLaneEnd (s : State) (x : Recovery) : State :=
  let r := partNumber x.part
  if s.isLastLane r s.msc.head.lane then
    (s.headTo laneSlots).endPartition x (partSlots x.start)
  else
    let s := s.nextLane
    let s := s.setRecovery { x with endPlace := max x.endPlace (s.partOffset r s.msc.head.lane 0) }
    s.stream .seeking

end State

end Sys2Proof.Machine
end

