-- ==== Sys2Proof/Machine/Packing.lean ====
section
/-! DEFINITION. The packing code, the encoder, the packed-or-stored decision and the decoder (spec/05 R86 to R88, R95 to R97). -/

namespace Sys2Proof.Machine

/-! ## The encoder (R87) -/

/-- The length of the common beginning of two byte strings, at most `fuel`. -/
def commonLength : Nat → List Byte → List Byte → Nat
  | 0, _, _ => 0
  | fuel + 1, x :: l, y :: m => if x = y then 1 + commonLength fuel l m else 0
  | _, _, _ => 0

/-- The largest match of the bytes `rest` to come, smallest distance first (R87): `history` holds the bytes before them, newest first, from distance `d + 1` on, and `source` the bytes from distance `d` on. A match may overlap what it produces, since `source` runs on into `rest`. A longer match wins, and of equal lengths the smaller distance. -/
def longestMatch (rest : List Byte) : List Byte → Nat → List Byte → Nat × Nat → Nat × Nat
  | [], _, _, best => best
  | x :: history, d, source, best =>
    let n := commonLength 66 rest (x :: source)
    longestMatch rest history (d + 1) (x :: source) (if best.2 < n then (d + 1, n) else best)

/-- The distance and length of the largest match at the bytes `rest` after `history` (newest first), at a distance of at most 2,048 (R87). -/
def bestMatch (history rest : List Byte) : Nat × Nat := longestMatch rest (history.take 2048) 0 rest (0, 0)

/-- The tokens of the bytes `rest` after `history` (newest first) (R87); `fuel` bounds the number of tokens. -/
def encodeFrom : Nat → List Byte → List Byte → List Token
  | _, _, [] => []
  | 0, _, _ => []
  | fuel + 1, history, byte :: rest =>
    let m := bestMatch history (byte :: rest)
    if 3 ≤ m.2 then
      .copy m.1 m.2 :: encodeFrom fuel ((((byte :: rest).take m.2).reverse ++ history).take 2048) ((byte :: rest).drop m.2)
    else .literal byte :: encodeFrom fuel ((byte :: history).take 2048) rest

/-- The token stream of a record (R87). -/
def encode (b : List Byte) : List Token := encodeFrom b.length [] b

/-! ## Bits (R86) -/

/-- The `w` bits of `n`, most significant first. -/
def natBits : Nat → Nat → List Bool
  | 0, _ => []
  | w + 1, n => (n / 2 ^ w % 2 == 1) :: natBits w n

/-- The bits of a token (R86). -/
def tokenBits : Token → List Bool
  | .literal byte => false :: natBits 8 byte.toNat
  | .copy d n => true :: (natBits 11 (d - 1) ++ natBits 6 (n - 3))

/-- The number a list of bits writes, most significant first. -/
def bitsNat (l : List Bool) : Nat := l.foldl (fun n bit => 2 * n + (if bit then 1 else 0)) 0

/-- Bits packed into bytes, most significant bit first, the last byte padded with zero bits (R86); `fuel` bounds the number of bytes. -/
def packBits : Nat → List Bool → List Byte
  | 0, _ => []
  | _, [] => []
  | fuel + 1, l => BitVec.ofNat 8 (bitsNat ((l.take 8) ++ List.replicate (8 - (l.take 8).length) false)) :: packBits fuel (l.drop 8)

/-- The bits of a token stream. -/
def streamBits (l : List Token) : List Bool := (l.map tokenBits).flatten

/-- The bytes of a token stream (R86). -/
def streamBytes (l : List Token) : List Byte := packBits (streamBits l).length (streamBits l)

/-- The stored form of a record and its scheme: Packed when that is shorter, the raw bytes otherwise (R88). -/
def storedForm (b : List Byte) : Scheme × List Byte :=
  let p := streamBytes (encode b)
  if p.length < b.length then (.packed, p) else (.stored, b)

/-! ## The decoder (R95 to R97) -/

/-- The description check that the expansion engine makes when it takes a request (R95). -/
def descriptionOk (scheme : Scheme) (raw stored : Nat) : Bool :=
  1 ≤ raw && raw ≤ 1048576 &&
    match scheme with
    | .stored => stored == raw
    | .packed => stored < raw

/-- The bits of a list of bytes in stream order (R86). -/
def byteBits (l : List Byte) : List Bool := (l.map (fun x => natBits 8 x.toNat)).flatten

/-- The bits of some bytes from bit `i` on, as many as the longest token holds. -/
def tokenWindow (b : List Byte) (i : Nat) : List Bool := ((byteBits ((b.drop (i / 8)).take 4)).drop (i % 8)).take 18

/-- The token at bit `i` with the bit after it, or none when the stream ends early (R96, R97). -/
def tokenAt (b : List Byte) (i : Nat) : Option (Token × Nat) :=
  let w := tokenWindow b i
  match w.head? with
  | none => none
  | some true =>
    if w.length < 18 then none
    else some (.copy (bitsNat ((w.drop 1).take 11) + 1) (bitsNat ((w.drop 12).take 6) + 3), i + 18)
  | some false =>
    if w.length < 9 then none
    else some (.literal (BitVec.ofNat 8 (bitsNat ((w.drop 1).take 8))), i + 9)

/-- A history (newest byte first) after a match of distance `d` and the length given: each byte is the one produced `d` bytes before it (R86, R96). -/
def copyRun (history : List Byte) (d : Nat) : Nat → List Byte
  | 0 => history
  | n + 1 => copyRun (history.getD (d - 1) 0 :: history) d n

/-- An expander after it has produced the bytes given (oldest first) and reached a place: bytes below the delivery limit pass to the port (R96). -/
def Expander.gain (e : Expander) (bytes : List Byte) (place : Nat) : Expander :=
  { e with
    produced := e.produced + bytes.length
    history := (bytes.reverse ++ e.history).take 2048
    place := place
    held := e.held ++ bytes.take (e.req.limit - (e.framed + e.held.length)) }

/-- The bytes of a Stored record still to be produced up to the next full frame, or up to the record's end (R96, R148). -/
def Expander.run (e : Expander) : Nat :=
  if e.framed + 8192 < e.req.limit then min (8192 - e.held.length) (e.req.raw - e.produced) else e.req.raw - e.produced

/-- One token of the walk, or the next run of bytes of a Stored record; none at a fault (R96, R97). A Stored record whose bytes run out before its raw length is at fault like a packed stream that ends early, which R97 says of decoding alone (DESIGN CHOICE, log entry 89). -/
def Expander.stepToken (e : Expander) : Option Expander :=
  match e.req.scheme with
  | .stored =>
    let l := (e.req.bytes.drop (e.place / 8)).take e.run
    if l.isEmpty then none else some (e.gain l (e.place + 8 * l.length))
  | .packed =>
    match tokenAt e.req.bytes e.place with
    | none => none
    | some (.literal x, i) => some (e.gain [x] i)
    | some (.copy d n, i) =>
      if e.produced < d || e.req.raw < e.produced + n then none
      else some (e.gain ((copyRun e.history d n).take n).reverse i)

/-- A frame's worth of bytes is held that does not include the last byte to be delivered (R148). -/
def Expander.frameFull (e : Expander) : Bool :=
  8192 ≤ e.held.length && e.framed + 8192 < e.req.limit

/-- Bytes passed to the port are held, and the last byte to be delivered is not among them, so that R148 holds no frame of them back (R97). -/
def Expander.unsentPassed (e : Expander) : Bool :=
  !e.held.isEmpty && e.framed + e.held.length < e.req.limit

/-- The walk until a frame is full, the record is produced or a token is at fault (R96). -/
def Expander.walk : Nat → Expander → Expander
  | 0, e => e
  | fuel + 1, e =>
    if e.frameFull || e.req.raw ≤ e.produced then e
    else
      match e.stepToken with
      | none => e
      | some e' => Expander.walk fuel e'

/-- Enough fuel for a whole record. -/
def Expander.fuel (e : Expander) : Nat := e.req.raw

/-- Whether 8 or more bits remain after the last token (R97). -/
def Expander.trailing (e : Expander) : Bool :=
  match e.req.scheme with
  | .stored => false
  | .packed => e.place + 8 ≤ 8 * e.req.bytes.length

/-- The request has come to its end without a fault (R96). -/
def Expander.complete (e : Expander) : Bool :=
  e.produced == e.req.raw && !e.trailing && !e.frameFull

/-- The walk meets a fault at its present place (R97). -/
def Expander.atFault (e : Expander) : Bool :=
  !e.frameFull && (if e.req.raw ≤ e.produced then e.trailing else e.stepToken.isNone)

end Sys2Proof.Machine
end

