-- ==== Sys2Proof/Machine/Placing.lean ====
section
/-! DEFINITION. The write side of the buffer: slot requests (R102, R103), the placement of marks and records (R106, R107, R109), the new-slot count and capacity admission (R110, R119), and the hand-over of a packed record (R92). -/

namespace Sys2Proof.Machine

/-- The bytes a fresh slot takes of one record: the most any fragment can be (R107). -/
def freshFragment : Nat := 262072

/-- The fresh slots that `n` stored bytes of a record fill from the start of a slot (R110). -/
def freshSlots (n : Nat) : Nat := (n + 262071) / freshFragment

/-- What placement does next with an assembling slot and `n` bytes still to place (R107). -/
inductive Fit where
  | close
  | finish
  | fragment (bytes : Nat)
deriving DecidableEq, Repr

/-- The step of R107: `begun` says that the record's first fragment has been placed. -/
def fitRecord (begun : Bool) (x : Slot) (n : Nat) : Fit :=
  if !x.entries.isEmpty && !begun && 1048288 < n then .close
  else if 8 + n ≤ x.room && x.entries.length < 512 then .finish
  else if 9 ≤ x.room && x.entries.length < 512 then .fragment (x.room - 8)
  else .close

/-- Whether a slot can take a mark (R106). -/
def takesMark (x : Slot) : Bool := 8 ≤ x.room && x.entries.length < 512

/-- The entry of a fragment that is not the record's last (R107). -/
def partEntry (begun : Bool) (raw n : Nat) (scheme : Scheme) : Entry :=
  if begun then .middle n scheme else .first raw n scheme

/-- The entry of a record's last fragment (R107). -/
def lastEntry (begun : Bool) (raw n : Nat) (scheme : Scheme) : Entry :=
  if begun then .last n scheme else .whole raw n scheme

/-- The new-slot count of a record of stored length `n` against a session's assembling slot (R110). -/
def newSlotsRecord (x : Option Slot) (n : Nat) : Nat :=
  match x with
  | none => freshSlots n
  | some x =>
    match fitRecord false x n with
    | .close => freshSlots n
    | .finish => 0
    | .fragment m => freshSlots (n - m)

/-- The marks an assembling slot still takes (R106). -/
def marksRoom (x : Slot) : Nat := min (512 - x.entries.length) (x.room / 8)

/-- The new-slot count of `n` marks placed in turn (R110, R119); a fresh slot takes 512 marks. -/
def newSlotsMarks (x : Option Slot) (n : Nat) : Nat :=
  match x with
  | none => (n + 511) / 512
  | some x => (n - marksRoom x + 511) / 512

namespace State

/-- The pending count of a session: its write-side slots (R119). -/
def pendingSlots (s : State) (r : Part) : Nat := s.sbm.slots.countP (fun x => x.ofSession r)

/-- Capacity admission of an object that takes `k` new slots (R119): the hard reserve of 96 positions stays. -/
def admits (s : State) (r : Part) (k : Nat) : Bool := hardReserve + (s.pendingSlots r + k) ≤ s.remaining r

/-- The new-slot count of a Write Record or Write Marks, a record by its raw length (R119). -/
def newSlots (s : State) (r : Part) : HostCmd → Nat
  | .writeRecord n => newSlotsRecord ((s.assemblingOf r).map s.slot) n
  | .writeMarks n _ => newSlotsMarks ((s.assemblingOf r).map s.slot) n
  | _ => 0

/-! ## Slot requests (R102) -/

/-- A fresh slot taken at once: no earlier request waits, and one may be taken (R102). -/
def takeNow (s : State) (r : Part) : Option State :=
  if s.sbm.requests.isEmpty then (slotForWriting s.sbm.slots).map (fun i => s.takeSlot i r) else none

/-- A request that waits, behind those already waiting (R102). -/
def waitSlot (s : State) (r : Part) (p : Port) (reason : SlotReason) : State :=
  s.setSbm { s.sbm with requests := s.sbm.requests ++ [{ row := r, port := p, reason := reason }] }

/-! ## Ends of commands that write -/

/-- A Write Marks ends OK, and requests a checkpoint (R133). -/
def endMarksOk (s : State) (p : Port) : State := (s.endCommand p .ok .none).requestCheckpoint false

/-- A write ends OK: a Write Marks requests a checkpoint (R131, R133). -/
def endWriteOk (s : State) (p : Port) : State :=
  match (s.port p).inService with
  | none => s
  | some c =>
    match c.cmd with
    | .writeMarks .. => s.endMarksOk p
    | _ => s.endCommand p .ok .none

/-- The holder's context advances past an admitted object: one mark more for a mark, and at the end (R72). -/
def advanceHolder (s : State) (r : Part) (p : Port) (marks : Nat) : State :=
  match s.context p with
  | none => s
  | some c =>
    if s.contextIn p r then s.setContext p (some { c with object := c.object + 1, marks := c.marks + marks, atEnd := true }) else s

/-- An object admitted to a row's session (R53, R72, R106, R109). -/
def countAdmitted (s : State) (r : Part) (p : Port) (marks : Nat) : State :=
  (s.setRow r { s.row r with admitted := (s.row r).admitted + 1, marksNext := (s.row r).marksNext + marks }).advanceHolder r p marks

/-! ## Marks (R106, R133) -/

/-- A Write Marks whose last mark is placed goes on: with its sync flag as a Sync, in Verified mode to wait for its last segment, otherwise to its end (R131, R133). -/
def finishMarks (s : State) (p : Port) (r : Part) : State :=
  match (s.port p).inService with
  | none => s
  | some c =>
    match c.cmd with
    | .writeMarks _ true =>
      let s := s.closeSlot r
      if (s.row r).unverified = 0 then s.endMarksOk p else s.setPhase p (.awaitSync r)
    | _ => if c.verified then (s.closeSlot r).setPhase p (.awaitVerify r ((s.row r).nextSegment - 1)) else s.endMarksOk p

/-- One mark placed in the assembling slot `i` and admitted (R106). -/
def placeMark (s : State) (i : Nat) (r : Part) (p : Port) : State :=
  ((s.placeEntry i r .mark []).countAdmitted r p 1).closeSlotIfFull r

/-- The marks still to be placed, one by one (R106); the command waits where no fresh slot can be taken. -/
def placeMarks (p : Port) (r : Part) : Nat → Nat → State → State
  | 0, _, s => s
  | fuel + 1, left, s =>
    if left = 0 then s.finishMarks p r
    else
      match s.assemblingOf r with
      | none =>
        match s.takeNow r with
        | some s => placeMarks p r fuel left s
        | none => (s.waitSlot r p .mark).setPhase p (.placingMarks left)
      | some i =>
        if takesMark (s.slot i) then placeMarks p r fuel (left - 1) (s.placeMark i r p)
        else placeMarks p r fuel left (s.closeSlot r)

/-- `n` marks placed as far as slots allow; each takes at most three of these steps. -/
def startMarks (s : State) (p : Port) (r : Part) (n : Nat) : State :=
  placeMarks p r (3 * n + 3) n (s.setPhase p (.placingMarks n))

/-! ## Records (R107, R109) -/

/-- The command of a record whose last fragment is placed: Buffered, it ends OK; Verified, the slot closes and it waits for that segment (R131). -/
def recordPlaced (s : State) (p : Port) (r : Part) : State :=
  match (s.port p).inService with
  | none => s
  | some c =>
    if c.phase = .placing then
      if c.verified then (s.closeSlot r).setPhase p (.awaitVerify r ((s.row r).nextSegment - 1)) else s.endWriteOk p
    else s

/-- A closure that waited for the placement is made (R109). -/
def closeAfterPlacing (s : State) (r : Part) : State :=
  if (s.row r).closeDue = .afterPlacing then s.closeNow r else s

/-- The last fragment of a record is placed (R109). -/
def finishPlacing (s : State) (p : Port) (r : Part) : State :=
  let s := (s.setSbm { s.sbm with placing := s.sbm.placing.set p none }).setIntake p .empty
  ((((s.countAdmitted r p 0).closeSlotIfFull r).refreshRow r).recordPlaced p r).closeAfterPlacing r

/-- A fragment of `m` bytes placed that is not the record's last: its slot closes (R107 step 3). -/
def placeFragment (s : State) (p : Port) (g : Placing) (i m : Nat) (raw : Nat) (scheme : Scheme) (bytes : List Byte) : State :=
  let s := s.placeEntry i g.row (partEntry g.begun raw m scheme) (bytes.take m)
  let s := s.setIntake p (.packed raw scheme (bytes.drop m))
  (s.setSbm { s.sbm with placing := s.sbm.placing.set p (some { g with begun := true }) }).closeSlot g.row

/-- The placement of port `p`'s record goes on as far as slots allow (R107, R109). -/
def continuePlacing (p : Port) : Nat → State → State
  | 0, s => s
  | fuel + 1, s =>
    match s.sbm.placing.get p, s.rcx.intake.get p with
    | some g, .packed raw scheme bytes =>
      match s.assemblingOf g.row with
      | none =>
        match s.takeNow g.row with
        | some s => continuePlacing p fuel s
        | none => s.waitSlot g.row p .placing
      | some i =>
        match fitRecord g.begun (s.slot i) bytes.length with
        | .close => continuePlacing p fuel (s.closeSlot g.row)
        | .fragment m => continuePlacing p fuel (s.placeFragment p g i m raw scheme bytes)
        | .finish => (s.placeEntry i g.row (lastEntry g.begun raw bytes.length scheme) bytes).finishPlacing p g.row
    | _, _ => s

/-- Enough steps for a record of five segments (R107). -/
def placingFuel : Nat := 16

/-- The hand-over of a packed record to the session it was admitted to (R92). A row that entry to Draining closed with nothing left to write is None without having failed, and the record is answered as for a closing one (DESIGN CHOICE, log entry 66). -/
def handOver (s : State) (p : Port) : State :=
  match (s.port p).inService, s.rcx.intake.get p with
  | some c, .packed raw scheme _ =>
    match c.part with
    | none => s
    | some r =>
      if c.lost then (s.setIntake p .empty).endCommand p .writeFault .none
      else if s.holds p r && (s.row r).state.isActive then
        continuePlacing p placingFuel
          ((s.setSbm { s.sbm with placing := s.sbm.placing.set p (some { row := r, scheme := scheme, raw := raw, begun := false }) }).setPhase p .placing)
      else (s.setIntake p .empty).endCommand p .notReady .none
  | _, _ => s

/-! ## Credit and grants (R102, R103) -/

/-- Data credit for the record of the port's Write Record (R103, R183): one data request for its whole declared length. -/
def giveCredit (s : State) (p : Port) : State :=
  match (s.port p).inService with
  | none => s
  | some c =>
    match c.cmd with
    | .writeRecord n =>
      let s := s.sendHost p (.dataRequest c.tag n)
      (s.setPort p { s.port p with credit := some n }).setPhase p .receiving
    | _ => s

/-- A Write Record that has passed its checks: its intake is receiving, and its credit is given or waits for a slot (R91, R103). -/
def startRecord (s : State) (p : Port) (r : Part) (n : Nat) : State :=
  let s := s.setIntake p (.receiving n [])
  match s.assemblingOf r with
  | some _ => s.giveCredit p
  | none =>
    match s.takeNow r with
    | some s => s.giveCredit p
    | none => (s.waitSlot r p .credit).setPhase p .awaitSlot

/-- The marks a waiting Write Marks has still to place. -/
def marksLeft (s : State) (p : Port) : Nat :=
  match (s.port p).inService with
  | some { phase := .placingMarks n, .. } => n
  | _ => 0

/-- The oldest waiting request granted with slot `i` (R102). -/
def serveRequest (s : State) (q : SlotRequest) (i : Nat) : State :=
  let s := s.setSbm { s.sbm with requests := s.sbm.requests.drop 1 }
  match q.reason with
  | .credit => (s.takeSlot i q.row).giveCredit q.port
  | .placing => continuePlacing q.port placingFuel (s.takeSlot i q.row)
  | .mark => placeMarks q.port q.row (3 * s.marksLeft q.port + 3) (s.marksLeft q.port) (s.takeSlot i q.row)
  | .truncate => (s.takeCopySlot i q.port q.row).setPhase q.port .tape

/-- The oldest waiting request, granted when a slot may be taken (R102). -/
def grantRequest (s : State) : State :=
  match s.sbm.requests with
  | [] => s
  | q :: _ =>
    match slotForWriting s.sbm.slots with
    | none => s
    | some i => s.serveRequest q i

/-- Every waiting request that can be granted is granted before a read takes a slot (R102). -/
def grantRequests : Nat → State → State
  | 0, s => s
  | fuel + 1, s => grantRequests fuel s.grantRequest

/-- The waiting requests served before a read-side slot is taken. -/
def settleRequests (s : State) : State := grantRequests 12 s

end State

end Sys2Proof.Machine
end

