-- ==== Sys2Proof/Machine/Reading.lean ====
section
/-! DEFINITION. The Read Unit: cache lookups (R142), header events of scans and reads (R76, R143), recovery (R144 to R146), reassembly and delivery (R147 to R149), the read-ahead fill (R151), Verify Scan (R153 to R155) and the Truncate copy (R111, R135). -/

namespace Sys2Proof.Machine

/-- The number of stripes of a set. -/
def stripeCount (x : StripeSet) : Nat := (List.range 16).countP (fun i => x.getLsbD i)

/-- A set with a stripe added. -/
def addStripe (x : StripeSet) (i : Nat) : StripeSet := x ||| BitVec.ofNat 16 (2 ^ i)

/-! ## Reassembly (R147) -/

/-- What a read's fragments make (R147): a mark, or a record by its description and stored bytes; its stored length is the sum of its fragments' (R94). -/
inductive Assembled where
  | mark
  | record (scheme : Scheme) (raw stored : Nat) (bytes : List Byte)
deriving DecidableEq, Repr

/-- The stored length and bytes of the Middle and Last fragments of object `p` in the slots after the first, each beginning with its fragment of the record's scheme (R94, R147). -/
def restOfRecord (p : Nat) (scheme : Scheme) : List Slot → Option (Nat × List Byte)
  | [] => none
  | x :: rest =>
    if x.header.firstObject != some p then none
    else
      match x.entries.head? with
      | some (.last n c) => if c = scheme && rest.isEmpty then some (n, fragmentBytes x.entries x.payload 0) else none
      | some (.middle n c) =>
        if c = scheme then (restOfRecord p scheme rest).map (fun b => (n + b.1, fragmentBytes x.entries x.payload 0 ++ b.2)) else none
      | _ => none

/-- The object `p` put together from the slots that hold it, in segment order; none where a check of R147 fails. -/
def assemble (p : Nat) : List Slot → Option Assembled
  | [] => none
  | x :: rest =>
    match beginsAt x p with
    | none => none
    | some i =>
      match x.entries[i]? with
      | some .mark => some .mark
      | some (.whole raw n c) => some (.record c raw n (fragmentBytes x.entries x.payload i))
      | some (.first raw n c) =>
        if 4 < rest.length then none
        else (restOfRecord p c rest).map (fun b => .record c raw (n + b.1) (fragmentBytes x.entries x.payload i ++ b.2))
      | _ => none

/-- Whether object `p` goes on past a slot: the slot begins it with a First, or begins with a Middle of it (R142). -/
def goesOn (x : Slot) (p : Nat) : Bool :=
  match beginsAt x p with
  | some i => (match x.entries[i]? with | some (.first ..) => true | _ => false)
  | none => (match x.entries.head? with | some (.middle ..) => true | _ => false)

/-! ## The end of a Verify Scan (R154) -/

/-- The object at which a scan's result leaves the context, with the marks before it (R154): OK at object c as taken at the grant, any other at the checked point. The committed mark count of the grant is what lies before c, also where a Truncate has left objects below c in a segment not yet written (R135), which no scan checks. -/
def ScanState.endsAt (x : ScanState) (result : HostResult) : Nat × Nat :=
  if result = .ok then (x.objects, x.marks) else (x.checkedPoint, x.checkedMarks)

/-! ## The work in a turn -/

/-- The port and read-side subject of a job whose streaming the rate review counts (R136). -/
def readSubject : Job → Option Port
  | .read p => some p
  | .fill p => some p
  | _ => none

namespace State

/-- The transport streams in an activity of reading: the rate selector's subject is the turn's port in a read or a fill (R136). -/
def streamFor (s : State) (x : Activity) : State :=
  match s.msc.turn with
  | none => s.stream x
  | some t =>
    match readSubject t.job with
    | some p => (s.rateFor (.reading p)).stream x
    | none => s.stream x

/-- The job of the turn in progress. -/
def job (s : State) : Option Job := s.msc.turn.map (·.job)

/-- Whether the turn in progress has been stopped by a Cut or a port reset (R83). -/
def stopping (s : State) : Bool := (s.msc.turn.map (·.stopping)).getD false

/-- Whether the turn in progress is the recovery scan's (R166). -/
def recovering (s : State) : Bool := s.job == some (.library .recoveryScan)

/-- The partition the turn in progress reads (R140). -/
def readingPart (s : State) : Option Part :=
  match s.job with
  | some (.position _ g) => some g.part
  | some (.read p) => (s.rdu.reads.get p).map (·.part)
  | some (.verify p) => (s.rdu.scans.get p).map (·.part)
  | some (.truncate p) => (s.port p).inService.bind (·.part)
  | some (.fill p) => (match s.rdu.fills.get p with | .running r _ => some r | _ => none)
  | some (.library .recoveryScan) => s.dtc.recovery.map (fun x => partNumber x.part)
  | _ => none

/-- Whether an in-lane offset of the head's lane lies at or beyond the recorded used-slot count, where a read looks no further (R144); the recovery scan reads on (R166). -/
def pastEnd (s : State) (r : Part) (o : Nat) : Bool :=
  !s.recovering && s.recordedUsed r ≤ s.partOffset r s.msc.head.lane o

/-- The in-lane offset at which a read on the head's lane ends: the recorded used-slot count's, or the lane's end (R144, R145). -/
def readEnd (s : State) (r : Part) : Nat :=
  if s.recovering then laneSlots
  else min laneSlots (max s.msc.head.offset (s.recordedUsed r - s.partOffset r s.msc.head.lane 0))

/-- Whether a read that reaches the end of the head's lane goes no further: the lane is the partition's last, or the recorded used-slot count lies on it (R76, R144). -/
def endsOnLane (s : State) (r : Part) : Bool :=
  s.isLastLane r s.msc.head.lane || s.pastEnd r laneSlots

/-- A port's read state replaced. -/
def setRead (s : State) (p : Port) (x : Option ReadState) : State := s.setRdu { s.rdu with reads := s.rdu.reads.set p x }
/-- A port's fill state replaced. -/
def setFill (s : State) (p : Port) (x : FillState) : State := s.setRdu { s.rdu with fills := s.rdu.fills.set p x }
/-- A port's scan state replaced. -/
def setScan (s : State) (p : Port) (x : Option ScanState) : State := s.setRdu { s.rdu with scans := s.rdu.scans.set p x }
/-- The read accumulation replaced. -/
def setAcc (s : State) (x : Option Acc) : State := s.setRdu { s.rdu with acc := x }

/-- The turn in progress ends when it is the job given. -/
def endTurnOf (s : State) (x : Job) : State := if s.job = some x then s.endTurn else s

/-- A command's own turn ends with it; one that a Port Cut has stopped before runs to its own end (R83). -/
def endOwnTurn (s : State) (x : Job) : State := if s.stopping then s else s.endTurnOf x

/-! ## Cache lookups (R142) -/

/-- The segments after segment `n` found for object `p`, each pinned, while the record goes on: the slots and whether all were found. -/
def lookupRest (p : Port) (object : Nat) (r : Part) : Nat → Nat → State → State × List (Nat × Nat) × Bool
  | 0, _, s => (s, [], true)
  | fuel + 1, n, s =>
    match lookupSlot s.sbm.slots r n with
    | none => (s, [], false)
    | some i =>
      let s := s.pinSlot i p
      if goesOn (s.slot i) object then
        let x := lookupRest p object r fuel (n + 1) s
        (x.1, (n, i) :: x.2.1, x.2.2)
      else (s, [(n, i)], true)

/-- The lookup of a read's object (R142): the slots found, pinned, and whether every segment it needs was found. -/
def lookupRecord (s : State) (p : Port) (r : Part) (object : Nat) : State × List (Nat × Nat) × Bool :=
  match lookupObject s.sbm.slots r object with
  | none => (s, [], false)
  | some i =>
    let n := (s.slot i).header.number
    let s := s.pinSlot i p
    if goesOn (s.slot i) object then
      let x := lookupRest p object r 4 (n + 1) s
      (x.1, (n, i) :: x.2.1, x.2.2)
    else (s, [(n, i)], true)

/-! ## The ends of reads (R148, R149) -/

/-- A fill posted at the end of a read turn whose last recovered segment is `n`; none where it recovered no segment (R151). -/
def postFill (s : State) (p : Port) (r : Part) : Option Nat → State
  | none => s
  | some n =>
    if (s.port p).options.readAhead && s.lsq.state == .ready && n + 1 < s.committedSegments r
        && readSideCount s.sbm.slots p < 8 && (lowestFree s.sbm.slots).isSome then
      s.setFill p (.posted r (n + 1))
    else s

/-- The fill that a read ending in its own turn posts (R151). -/
def postFillOf (s : State) (p : Port) (x : Option ReadState) : State :=
  match x with
  | none => s
  | some x => s.postFill p x.part x.lastRead

/-- A Read Record ends: its request and pins are dropped, its state is idle, the command ends, and its turn, where it is still in progress, with it, a fill posted (R151). -/
def endRead (s : State) (p : Port) (result : HostResult) (detail : Detail) : State :=
  let x := if s.job = some (.read p) && !s.stopping then s.rdu.reads.get p else none
  let s := (s.setRead p none).dropExpansions p
  let s := (s.dropPins p).endCommand p result detail
  (s.endOwnTurn (.read p)).postFillOf p x

/-- A read's context after its object (R148): one past it, or the committed end where that has fallen to the object or below it during the read (DEDUCED, log entry 73). -/
def advanceReader (s : State) (p : Port) (x : ReadState) (marks : Nat) : State :=
  match s.context p with
  | none => s
  | some c =>
    let e := s.visibleEnd p x.part
    if x.fallen || e < x.object + 1 then
      s.setContext p (some { c with object := e, marks := s.committedMarks x.part, atEnd := true })
    else s.setContext p (some { c with object := x.object + 1, marks := c.marks + marks, atEnd := e = x.object + 1 })

/-- The slots a read holds, in segment order. -/
def heldSlots (s : State) (x : ReadState) : List Slot :=
  let first := x.first.getD 0
  (List.range 6).filterMap (fun k => (x.held.find? (fun y => y.1 == first + k)).map (fun y => s.slot y.2))

/-- Reassembly of a read whose segments are all held (R147): a mark ends MARK_FOUND, a record goes to the expansion engine, and a failed check ends READ_FAULT. -/
def reassemble (s : State) (p : Port) (x : ReadState) : State :=
  match assemble x.object (s.heldSlots x) with
  | none => s.endRead p .readFault .none
  | some .mark => (s.advanceReader p x 1).endRead p .markFound (.rawLength 0)
  | some (.record scheme raw stored bytes) =>
    let s := s.setRead p (some { x with phase := .delivering })
    s.setRcx
      { s.rcx with
        expQueue := s.rcx.expQueue ++
          [{ port := p, scan := false, object := x.object, scheme := scheme, raw := raw, stored := stored, bytes := bytes, limit := min x.limit raw }] }

/-- The next segment a read lacks, from its first on; none when it has all it needs (R143). -/
def lackingFrom (s : State) (x : ReadState) : Nat → Nat → Option Nat
  | 0, _ => none
  | fuel + 1, n =>
    match x.held.find? (fun y => y.1 == n) with
    | none => if s.committedSegments x.part ≤ n then none else some n
    | some y => if goesOn (s.slot y.2) x.object then lackingFrom s x fuel (n + 1) else none

/-- The next segment a read lacks (R143); a record spans at most five segments (R147). -/
def lacking (s : State) (x : ReadState) : Option Nat :=
  match x.first with
  | none => none
  | some n => lackingFrom s x 5 n

/-! ## The read-ahead fill (R151) -/

/-- A fill stops: its state is none and its turn ends. -/
def stopFill (s : State) (p : Port) : State := (s.setFill p .none).endTurnOf (.fill p)

/-- Whether work other than the fill in progress is eligible (R151). -/
def workBesideFill (s : State) (p : Port) : Bool :=
  s.msc.libWork.isSome || (s.portWork (otherPort p)).isSome || s.commandEligible p
    || (match s.sessionOf p with | some r => s.drainEligible r | none => false)

/-- Whether a fill whose next segment is `n` is at its limits (R151). -/
def fillAtLimit (s : State) (p : Port) (r : Part) (n : Nat) : Bool :=
  8 ≤ readSideCount s.sbm.slots p || (lowestFree s.sbm.slots).isNone || s.committedSegments r ≤ n || s.lsq.state != .ready || s.stopping

/-- A fill with no segment in hand, at its beginning or past a segment already held: it stops at its limits, or streams on to its next segment. -/
def fillMoves (s : State) (p : Port) : State :=
  match s.rdu.fills.get p with
  | .running r n => if s.fillAtLimit p r n then s.stopFill p else s.streamFor .seeking
  | _ => s.stopFill p

/-- A fill whose segment in hand has ended: it stops where other work is eligible, and goes on otherwise. -/
def fillOn (s : State) (p : Port) : State := if s.workBesideFill p then s.stopFill p else s.fillMoves p

/-! ## Verify Scan (R153 to R155) -/

/-- Whether an expansion of the port waits or runs. -/
def expanding (s : State) (p : Port) : Bool :=
  s.rcx.expQueue.any (fun q => q.port == p) ||
    (match s.rcx.expander with | none => false | some e => e.req.port == p)

/-- A read that a Port Cut has stopped is idle once the segment being read has been read to its end (R140); a read taken since is left. -/
def idleRead (s : State) (p : Port) : State :=
  match s.rdu.reads.get p with
  | some { phase := .reading, .. } => s.setRead p none
  | _ => s

/-- A slot taken by a copy that is not recovered goes to FREE (R146); a held slot stays. -/
def freeCopySlot (s : State) : State :=
  match s.rdu.acc with
  | some { slot := some i, .. } => if (s.slot i).state = .filling then s.setSlot i Slot.free else s
  | _ => s

/-- A scan's context at its end (R154): at the object given with the marks before it, judged against the end at that moment; at that end, where it has fallen below the object (DESIGN CHOICE, log entry 98). -/
def scanContext (s : State) (p : Port) (r : Part) (object marks : Nat) : State :=
  match s.context p with
  | none => s
  | some c =>
    let e := s.visibleEnd p r
    if e < object then s.setContext p (some { c with object := e, marks := s.committedMarks r, atEnd := true })
    else s.setContext p (some { c with object := object, marks := marks, atEnd := object = e })

/-- A Verify Scan ends (R154): what it still holds is released, the context is set to the object that its result names, and the response carries the segments checked and the checked point, the first object not checked (R153), with DECODE_FAULT too these alone (DESIGN CHOICE, log entry 72). -/
def endScan (s : State) (p : Port) (x : ScanState) (result : HostResult) (faulty : Option Nat) : State :=
  let s := ((s.freeCopySlot.setAcc none).setScan p none).dropExpansions p
  let s := (s.scanContext p x.part (x.endsAt result).1 (x.endsAt result).2).dropPins p
  (s.endCommand p result (.scan x.segmentsChecked x.checkedPoint faulty)).endOwnTurn (.verify p)

/-- A scan whose reading has ended comes to its end when its expansions have (R154, R155). -/
def scanSettled (s : State) (p : Port) : State :=
  match s.rdu.scans.get p with
  | some x =>
    match x.ended with
    | some .complete => if x.found.isEmpty then s.endScan p x .ok none else s
    | some .abandoned => if s.expanding p then s else s.endScan p x .scanAbandoned none
    | some .stopped => s
    | none => s
  | none => s

/-- A scan stopped by a Port Cut or a port reset is dropped (R58, R60); its command, where it is still in service, is left to the Cut. -/
def dropScan (s : State) (p : Port) : State :=
  let s := if s.job = some (.verify p) then s.freeCopySlot.setAcc none else s
  ((s.setScan p none).dropExpansions p).dropPins p

/-- A stopped scan has read its segment to the end: it is dropped with its turn (R58). -/
def stopScan (s : State) (p : Port) : State := (s.dropScan p).endTurnOf (.verify p)

/-- A turn stopped by a Port Cut or a port reset has come to the end of the segment being read, and ends with what was left of its work: a scan that its Cut waits for (R58), a read whose segment has been read (R140), a fill (R83). -/
def endStopped (s : State) : State :=
  match s.job with
  | some (.verify p) => if (s.port p).cut then s.stopScan p else s.endTurn
  | some (.read p) => (s.idleRead p).endTurn
  | some (.fill p) => s.stopFill p
  | _ => s.endTurn

/-- The scan's reading stops where it is, abandoned (R155). -/
def abandonScan (s : State) (p : Port) (x : ScanState) : State :=
  let s := (s.freeCopySlot.setAcc none).stopTransport
  (s.setScan p (some { x with ended := some .abandoned })).scanSettled p

/-- A scan whose turn is in progress becomes pending abandonment (R155): streaming or waiting with no read pass in hand it stops at once, and a relocation or a leaving procedure runs to its end first (DESIGN CHOICE, log entry 65). One that a Port Cut has stopped ends by the Cut (R154). -/
def pendScan (s : State) (p : Port) : State :=
  match s.rdu.scans.get p with
  | none => s
  | some x =>
    if s.job = some (.verify p) && !s.stopping && x.ended.isNone && !x.pending then
      match s.msc.activity with
      | .scanning => s.haltTransport.abandonScan p { x with pending := true }
      | .seeking => s.haltTransport.abandonScan p { x with pending := true }
      | .awaitingSlot => s.haltTransport.abandonScan p { x with pending := true }
      | _ => s.setScan p (some { x with pending := true })
    else s

/-- The checked point moves past the checked objects in order (R153). -/
def passChecked : Nat → ScanState → ScanState
  | 0, x => x
  | fuel + 1, x =>
    match x.found with
    | o :: rest =>
      if o.checked then
        passChecked fuel { x with found := rest, checkedPoint := o.object + 1, checkedMarks := x.checkedMarks + (if o.isMark then 1 else 0) }
      else x
    | [] => x

/-- The pins a scan no longer needs are dropped: the slots whose objects the checked point has passed (R153). -/
def releaseScanned (s : State) (p : Port) (x : ScanState) : State :=
  let done := x.held.filter (fun h => h.2.2 ≤ x.checkedPoint)
  let s := done.foldl (fun s h => s.dropPin h.2.1 p) s
  s.setScan p (some { x with held := x.held.filter (fun h => !(h.2.2 ≤ x.checkedPoint)) })

/-- What a scan makes of one entry of a segment (R153): the scan state and the requests it sends; none where a fragment disagrees with R147. `k` is the entry's object and `i` its position. -/
def scanEntry (p : Port) (x : ScanState) (l : List Entry) (payload : List Byte) (i k : Nat) (e : Entry) : Option (ScanState × List ExpRequest) :=
  let bytes := fragmentBytes l payload i
  if x.objects ≤ k then some (x, [])
  else
    match e with
    | .mark => if x.partial_.isSome then none else if k < x.start then some (x, []) else some ({ x with found := x.found ++ [{ object := k, isMark := true, checked := true }] }, [])
    | .whole raw n c =>
      if x.partial_.isSome then none
      else if k < x.start then some (x, [])
      else some ({ x with found := x.found ++ [{ object := k, isMark := false, checked := false }] },
        [{ port := p, scan := true, object := k, scheme := c, raw := raw, stored := n, bytes := bytes, limit := 0 }])
    | .first raw n c =>
      if x.partial_.isSome || i + 1 != l.length then none
      else if k < x.start then some (x, [])
      else some ({ x with
        found := x.found ++ [{ object := k, isMark := false, checked := false }]
        partial_ := some { port := p, scan := true, object := k, scheme := c, raw := raw, stored := n, bytes := bytes, limit := 0 }
        fragments := 1 }, [])
    | .middle n c =>
      if i != 0 || l.length != 1 then none
      else
        match x.partial_ with
        | none => if k < x.start then some (x, []) else none
        | some q =>
          if q.object = k && q.scheme = c && x.fragments < 5 then
            some ({ x with partial_ := some { q with stored := q.stored + n, bytes := q.bytes ++ bytes }, fragments := x.fragments + 1 }, [])
          else none
    | .last n c =>
      if i != 0 then none
      else
        match x.partial_ with
        | none => if k < x.start then some (x, []) else none
        | some q =>
          if q.object = k && q.scheme = c && x.fragments < 5 then
            some ({ x with partial_ := none, fragments := 0 }, [{ q with stored := q.stored + n, bytes := q.bytes ++ bytes }])
          else none

/-- What a scan makes of a segment's entries in order (R153). -/
def scanEntries (p : Port) (l : List Entry) (payload : List Byte) : List Entry → Nat → Nat → ScanState → List ExpRequest → Option (ScanState × List ExpRequest)
  | [], _, _, x, q => some (x, q)
  | e :: rest, i, k, x, q =>
    match scanEntry p x l payload i k e with
    | none => none
    | some y => scanEntries p l payload rest (i + 1) (k + 1) y.1 (q ++ y.2)

/-- Whether a segment's header agrees with what the scan expects: the first object and the marks before counted from the segments already checked (R153). -/
def scanExpects (x : ScanState) (h : SegHeader) : Bool :=
  match x.expectObject with
  | none => true
  | some f => h.firstObject == some f && h.marksBefore == some x.expectMarks

/-- A segment of a scan has been recovered into slot `i` (R153): it is counted and checked, and its objects are assembled; the scan goes on by `go`, ends, or stops where it is pending abandonment. A segment whose header or fragments end the scan VERIFY_FAULT has none of its marks checked (DESIGN CHOICE, log entry 84). A record below c that the last segment leaves unended ends the scan VERIFY_FAULT there, also where its Last lies in a segment that a Truncate has cut and that is not yet written again (R135; DESIGN CHOICE, log entry 99). -/
def scanSegment (s : State) (p : Port) (x : ScanState) (i : Nat) (go : State → State) : State :=
  let c := s.slot i
  let first := c.header.firstObject.getD 0
  let x := { x with segmentsChecked := x.segmentsChecked + 1, held := x.held ++ [(c.header.number, i, first + c.entries.length)] }
  if scanExpects x c.header then
    match scanEntries p c.entries c.payload c.entries 0 first x [] with
    | none => s.endScan p x .verifyFault (some c.header.number)
    | some (y, q) =>
      let y := { y with
        next := c.header.number + 1
        expectObject := some (objectsEnd first c.entries)
        expectMarks := c.header.marksBefore.getD 0 + markCount c.entries }
      let s := s.setRcx { s.rcx with expQueue := s.rcx.expQueue ++ q }
      let y := passChecked y.found.length y
      let s := s.releaseScanned p y
      match s.rdu.scans.get p with
      | none => s
      | some y =>
        if y.segments ≤ y.next then
          if y.partial_.isSome then s.endScan p y .verifyFault (some c.header.number)
          else (s.stopTransport.setScan p (some { y with ended := some .complete })).scanSettled p
        else if y.pending then s.abandonScan p y
        else go s
  else s.endScan p x .verifyFault (some c.header.number)

/-! ## Truncate's copy (R111, R134, R135) -/

/-- A Truncate ends without effect: its port's copy slot is freed (R134). -/
def dropCopy (s : State) (p : Port) : State := s.mapSlots (fun x => if x.copying = some p then Slot.free else x)

/-- A Truncate that fails ends with a result, its slot freed and its turn ended. -/
def endTruncate (s : State) (p : Port) (result : HostResult) : State :=
  (((s.dropCopy p).setAcc none).endCommand p result .none).endOwnTurn (.truncate p)

/-- A context of the port that did not truncate (R135): one above the cut is moved to it with attention, one at it is at the end. -/
def contextAtCut (s : State) (r : Part) (p : Port) (object marks : Nat) : State :=
  match s.context p with
  | none => s
  | some c =>
    if s.contextIn p r then
      if object < c.object then
        (s.setContext p (some { c with object := object, marks := marks, atEnd := true })).addAttention p .partitionTruncated
      else if c.object = object then s.setContext p (some { c with atEnd := true })
      else s
    else s

/-- A slot that holds the head of the cut segment, cut before the entry at position `j` (R111). -/
def cutSlot (x : Slot) (r : Part) (j : Nat) : Slot :=
  let l := x.entries.take j
  let b := x.payload.take (payloadOffset x.entries j)
  { Slot.free with
    state := .assembling
    owner := .row r
    entries := l
    payload := b
    header :=
      { part := r, number := x.header.number, attempt := 0,
        firstObject := if l.isEmpty then none else x.header.firstObject,
        marksBefore := if l.isEmpty then none else x.header.marksBefore,
        entryCount := l.length, payloadLength := b.length } }

/-- The copy of a Truncate cut in slot `i`, which becomes the session's; the slot `k` taken for it, where it is another, is FREE again (R111). -/
def cutCopy (s : State) (k i : Nat) (x : Slot) : State := s.setSbm { s.sbm with slots := (s.sbm.slots.set k Slot.free).set i x }

/-- The effects of a Truncate whose copy is complete (R135), the copy in slot `i`, found on a lane at an in-lane offset, and slot `k` the one taken for it. -/
def truncateAt (s : State) (p : Port) (r : Part) (k i lane o object : Nat) : State :=
  let x := s.slot i
  let first := x.header.firstObject.getD 0
  let j := object - first
  let marks := x.header.marksBefore.getD 0 + markCount (x.entries.take j)
  let n := x.header.number
  let s := (s.cutCopy k i (cutSlot x r j)).setRow r
    { Row.empty with
      holder := some p, state := .streaming, firstObject := object, nextSegment := n + 1, marksNext := marks,
      holdTimer := some s.sst.settings.appendHold }
  let s := (s.setPartDir r (fun d => cutDir d n object marks (s.partOffset r lane o) lane)).noteCut
  let s := s.invalidateSlots (fun y => y.header.part == r && n ≤ y.header.number)
  let s := s.dropLandmark (fun m => m.part == r && n ≤ m.segment)
  let s := (s.needStaleMark r).noteFallen r object
  let s := match s.context p with
    | none => s
    | some c => if s.contextIn p r then s.setContext p (some { c with object := object, marks := marks, atEnd := true }) else s
  let s := (s.contextAtCut r (otherPort p) object marks).closeSlotIfFull r
  ((s.setAcc none).endCommand p .ok .none).endTurnOf (.truncate p)

/-- A Truncate whose copy is complete ends without effect: its slot is freed, and the read-side slots are left as they are (R134). -/
def refuseTruncate (s : State) (p : Port) (result : HostResult) (detail : Detail) : State :=
  (((s.dropCopy p).setAcc none).endCommand p result detail).endTurnOf (.truncate p)

/-- A Truncate whose copy is complete takes effect, unless the partition has meanwhile become write-protected (R19) or the row has been taken (checks 3 and 4 of R134 as they then stand); a port holds one session (R51). -/
def truncateDone (s : State) (p : Port) (r : Part) (k i lane o object : Nat) : State :=
  if s.writeProtected r then s.refuseTruncate p .writeProtected .none
  else if (s.row r).state = .none && (s.sessionOf p).isNone then s.truncateAt p r k i lane o object
  else s.refuseTruncate p .sessionHeld (if (s.row r).state = .closing then .closing else .none)

/-- The object at which a Truncate in service cuts: that of the context it works from (R48, R134). -/
def cutObject (s : State) (p : Port) : Nat := ((s.workContext p).map (·.object)).getD 0

/-- The slot taken for a port's Truncate (R111). -/
def copySlot (s : State) (p : Port) : Option Nat := s.sbm.slots.findIdx? (fun x => x.state == .assembling && x.copying = some p)

/-! ## Copies (R144) -/

/-- Recovery of a copy begins with the head at its first stripe (R144). -/
def startCopy (s : State) (a : Acc) : State := (s.setAcc (some a)).streamFor .reading

/-- A copy to be recovered: where it is, what it is, and the slot the work took. -/
def newAcc (s : State) (r : Part) (number : Nat) (attempt : Option Nat) (o : Nat) (forScan : Bool) (slot : Option Nat) : Acc :=
  { part := r, number := number, attempt := attempt, lane := s.msc.head.lane, offset := o, readable := 0, retries := 0, passed := 0,
    forScan := forScan, slot := slot, content := none }

/-- A read-side slot taken for a segment of a port (R113): it enters FILLING. -/
def takeReadSlot (s : State) (i : Nat) (p : Port) (r : Part) (n : Nat) : State :=
  s.setSlot i { Slot.free with state := .filling, owner := .port p, header := { blankHeader with part := r, number := n } }

/-- A read that no slot can serve awaits one: the transport stops and its turn ends (R143). -/
def readAwaitsSlot (s : State) (p : Port) (x : ReadState) : State :=
  (s.setRead p (some { x with phase := .awaitingSlot })).endTurnOf (.read p)

/-- The end of a Read Record turn that read from tape (R143, R151): the turn ends, a fill is posted, and the record is put together. -/
def finishReadTurn (s : State) (p : Port) (x : ReadState) : State :=
  ((s.endTurnOf (.read p)).postFill p x.part x.lastRead).reassemble p x

/-- The slots a read comes upon are pinned as they come (R143): a segment held by the cache is not read. -/
def readHolds (s : State) (p : Port) (x : ReadState) (n i : Nat) : State × ReadState :=
  let s := s.pinSlot i p
  let x := { x with held := x.held ++ [(n, i)] }
  (s.setRead p (some x), x)

/-- A read goes on after it has a further segment: to the next it lacks by `go`, or to the end of its turn. -/
def readOn (s : State) (p : Port) (x : ReadState) (go : State → State) : State :=
  match s.lacking x with
  | some _ => go s
  | none => s.finishReadTurn p x

/-- A read takes up a copy of the segment it lacks (R113, R143). -/
def readCopy (s : State) (p : Port) (x : ReadState) (n : Nat) (attempt : Option Nat) (o : Nat) : State :=
  match lookupSlot s.sbm.slots x.part n with
  | some i =>
    let y := s.readHolds p x n i
    y.1.readOn p y.2 (fun s => s.streamFor .seeking)
  | none =>
    let s := s.settleRequests
    match slotForRead s.sbm.slots p with
    | none => s.readAwaitsSlot p x
    | some i => (s.takeReadSlot i p x.part n).startCopy (s.newAcc x.part n attempt o false (some i))

/-- A scan takes up a copy of its next segment: a held slot is pinned, otherwise a slot is taken, or awaited at the segment (R113, R153). -/
def scanCopy (s : State) (p : Port) (x : ScanState) (n : Nat) (attempt : Option Nat) (o : Nat) : State :=
  match lookupSlot s.sbm.slots x.part n with
  | some i => (s.pinSlot i p).startCopy (s.newAcc x.part n attempt o false (some i))
  | none =>
    let s := s.settleRequests
    match slotForRead s.sbm.slots p with
    | none => (s.stopTransport.setAcc (some (s.newAcc x.part n attempt o false none))).setActivity .awaitingSlot
    | some i => (s.takeReadSlot i p x.part n).startCopy (s.newAcc x.part n attempt o false (some i))

/-- A fill takes up a copy of its next segment, or passes over one already held (R151). Where the write side has taken the last FREE slot while the fill sought this segment, it stops here, at the header that it would read (DESIGN CHOICE, log entry 90). -/
def fillCopy (s : State) (p : Port) (r : Part) (n : Nat) (attempt : Option Nat) (o : Nat) : State :=
  match lookupSlot s.sbm.slots r n with
  | some _ => (s.setFill p (.running r (n + 1))).fillMoves p
  | none =>
    let s := s.settleRequests
    match slotForFill s.sbm.slots p with
    | none => s.stopFill p
    | some i => (s.takeReadSlot i p r n).startCopy (s.newAcc r n attempt o false (some i))

/-- A Truncate's find of segment `n` (R111, R134): a CACHED unpinned slot that holds it is converted, and a pinned one is invalidated and the segment read into the taken slot. -/
def truncateFound (s : State) (p : Port) (r : Part) (n : Nat) (attempt : Option Nat) (o : Nat) (begin : State → Acc → State) : State :=
  match s.copySlot p with
  | none => s.endTruncate p .readFault
  | some k =>
    let found := fun (s : State) => s.setSlot k { s.slot k with header := { (s.slot k).header with number := n }, lane := s.msc.head.lane, offset := o }
    match lookupSlot s.sbm.slots r n with
    | some i =>
      if (s.slot i).pinned then
        begin (found (s.setSlot i { s.slot i with invalidated := true })) (s.newAcc r n attempt o false (some k))
      else
        (s.stopTransport).truncateDone p r k i s.msc.head.lane o (s.cutObject p)
    | none => begin (found s) (s.newAcc r n attempt o false (some k))

/-! ## Header scans (R76) -/

/-- A header scan fails: the transport stops where it is, and the command ends READ_FAULT (R76, R83, R149, R154); a stopped turn ends as it was stopped. -/
def failScan (s : State) : State :=
  let s := (s.setAcc none).stopTransport
  if s.stopping then s.endStopped
  else
  match s.job with
  | some (.position p _) => (s.endCommand p .readFault .none).endTurn
  | some (.read p) => s.endRead p .readFault .none
  | some (.verify p) =>
    (match s.rdu.scans.get p with
    | some x => s.endScan p x .readFault none
    | none => s.endTurn)
  | some (.truncate p) => s.endTruncate p .readFault
  | _ => s

/-- A scan's find (R76): the transport stops at the segment's first stripe, and the work that asked for it goes on. `begin` starts the reading of a copy, from where the head then is. -/
def scanFinds (s : State) (r : Part) (o : Nat) (h : SegHeader) (object marks : Nat) (begin : State → Acc → State) : State :=
  let s := s.stopTransport
  match s.job with
  | some (.position p g) =>
    (match g.aim with
    | .mark _ true => s.arriveAt p g (object + 1) (marks + 1)
    | _ => s.arriveAt p g object marks)
  | some (.read p) =>
    (match s.rdu.reads.get p with
    | none => s.endTurn
    | some x =>
      let x := { x with first := some h.number }
      let s := s.setRead p (some x)
      match x.held.find? (fun y => y.1 == h.number) with
      | some _ => s.readOn p x (fun s => s.streamFor .seeking)
      | none =>
        match lookupSlot s.sbm.slots x.part h.number with
        | some i =>
          let y := s.readHolds p x h.number i
          y.1.readOn p y.2 (fun s => s.streamFor .seeking)
        | none =>
          let s := s.settleRequests
          match slotForRead s.sbm.slots p with
          | none => s.readAwaitsSlot p x
          | some i => begin (s.takeReadSlot i p x.part h.number) (s.newAcc x.part h.number (some h.attempt) o false (some i)))
  | some (.verify p) =>
    (match s.rdu.scans.get p with
    | none => s.endTurn
    | some x =>
      let x := { x with next := h.number }
      let s := s.setScan p (some x)
      if x.pending then s.abandonScan p x
      else
        match lookupSlot s.sbm.slots x.part h.number with
        | some i => begin (s.pinSlot i p) (s.newAcc x.part h.number (some h.attempt) o false (some i))
        | none =>
          let s := s.settleRequests
          match slotForRead s.sbm.slots p with
          | none => (s.setAcc (some (s.newAcc x.part h.number (some h.attempt) o false none))).setActivity .awaitingSlot
          | some i => begin (s.takeReadSlot i p x.part h.number) (s.newAcc x.part h.number (some h.attempt) o false (some i)))
  | some (.truncate p) => s.truncateFound p r h.number (some h.attempt) o begin
  | _ => s

/-- A header of a segment at `o` on `lane` taken by a header scan (R76): passed over, the find, or the scan's failure. `go` streams on. -/
def scanHeader (s : State) (x : HeaderScan) (lane o : Nat) (h : SegHeader) (l : List Entry) (begin : State → Acc → State) (go : State → State) : State :=
  let s := s.setLandmark x.part lane o h l
  if h.number < x.expected || x.taken.contains h.number then go s
  else if s.committedSegments x.part ≤ h.number then s.failScan
  else
    match findIn (h.firstObject.getD 0) (h.marksBefore.getD 0) l x.target with
    | some (object, marks) =>
      (s.setMsc { s.msc with head := placeOf lane o }).scanFinds x.part o h object marks begin
    | none => go (s.setMsc { s.msc with scan := some { x with taken := h.number :: x.taken } })

/-- The number a header scan would next come upon: the one expected at an unreadable header (R145). -/
def scanNumber (x : HeaderScan) : Nat :=
  match x.taken.head? with
  | some n => n + 1
  | none => x.expected

/-! ## Recovered and unrecoverable copies (R144, R146) -/

/-- Streaming on after a recovered copy: from its end, to which the head returns when the look-ahead has carried it further. -/
def goOn (s : State) (a : Acc) (ahead : Bool) : State :=
  if ahead then s.relocate (targetOf a.lane (a.offset + 16)) .resume else s.streamFor .seeking

/-- A fill goes on past the copy it has read, where it does not stop there (R151); from the copy's end where the look-ahead has carried the head further. -/
def fillPast (s : State) (p : Port) (a : Acc) (ahead : Bool) : State :=
  let s := s.fillOn p
  if ahead && s.job = some (.fill p) then s.goOn a ahead else s

/-- The reading of a copy from where the head is: it returns to the copy's first stripe when it stands elsewhere (R144). -/
def beginCopy (s : State) (a : Acc) : State :=
  if s.msc.head = placeOf a.lane a.offset then s.startCopy a else (s.setAcc (some a)).relocate (placeOf a.lane a.offset) .reread

/-- A segment's contents written into its FILLING slot, which becomes CACHED (R112). -/
def cacheSlot (s : State) (i : Nat) (c : Segment) : State :=
  if (s.slot i).state = .filling then
    (s.setSlot i { s.slot i with state := .cached, header := c.header, entries := c.entries, payload := c.payload, lastUse := some s.clock }).tick
  else s

/-- A slot taken for a segment is FREE again; one that held it before loses the port's pin. -/
def giveBack (s : State) (i : Nat) (p : Port) : State :=
  if (s.slot i).state = .filling then s.setSlot i Slot.free else s.dropPin i p

/-- The segment that a stopped read or scan was reading is kept as the read-ahead option states (R58, R112), where it is the one its slot was taken for (R100; DEDUCED, log entry 69); a slot that held it before stays as it is. -/
def keepRead (s : State) (i : Nat) (c : Segment) : State :=
  if (s.slot i).state = .filling then
    if c.header.number = (s.slot i).header.number then
      let s := s.cacheSlot i c
      s.setSlot i (Slot.afterUnpin s.readAheads (s.slot i))
    else s.setSlot i Slot.free
  else s

/-- A stopped read has read its segment to the end, and its turn ends (R58, R83, R140). -/
def keepStopped (s : State) (i : Nat) (c : Segment) : State := (s.keepRead i c).endStopped

/-- A recovered segment of a read: of the number its slot was taken for, it is cached and pinned (R143). Another segment is passed over, its slot freed. -/
def readRecovered (s : State) (p : Port) (a : Acc) (c : Segment) (ahead : Bool) : State :=
  match s.rdu.reads.get p, a.slot with
  | some x, some i =>
    if s.stopping then s.keepStopped i c
    else if c.header.number = (s.slot i).header.number then
      let s := s.cacheSlot i c
      let s := s.setSlot i ((s.slot i).setPin p true)
      let x := { x with held := x.held ++ [(c.header.number, i)], lastRead := some c.header.number }
      (s.setRead p (some x)).readOn p x (fun s => s.goOn a ahead)
    else (s.setSlot i Slot.free).goOn a ahead
  | none, some i => s.keepStopped i c
  | _, none => s.endTurnOf (.read p)

/-- A recovered segment of a fill (R151): CACHED without a pin, unless it was invalidated meanwhile; another segment than its own is passed over. The segment in hand has ended in both cases, and the fill stops or goes on. -/
def fillRecovered (s : State) (p : Port) (a : Acc) (c : Segment) (ahead : Bool) : State :=
  match a.slot with
  | none => s.stopFill p
  | some i =>
    if (s.slot i).invalidated then (s.setSlot i Slot.free).stopFill p
    else if c.header.number = (s.slot i).header.number then
      ((s.cacheSlot i c).setFill p (.running a.part (c.header.number + 1))).fillPast p a ahead
    else (s.setSlot i Slot.free).fillPast p a ahead

/-- A recovered segment of a Verify Scan (R153): a lower one than its next is passed over, a higher one is a header that disagrees (R154), and the next is checked, its contents the held slot's, or those read. -/
def scanRecovered (s : State) (p : Port) (a : Acc) (c : Segment) (ahead : Bool) : State :=
  match s.rdu.scans.get p, a.slot with
  | some x, some i =>
    if s.stopping then s.keepStopped i c
    else if c.header.number < x.next then
      let s := s.giveBack i p
      if x.pending then s.abandonScan p x else s.goOn a ahead
    else if x.next < c.header.number then
      (s.giveBack i p).endScan p { x with segmentsChecked := x.segmentsChecked + 1 } .verifyFault (some c.header.number)
    else
      let s :=
        if (s.slot i).state = .filling then
          let s := s.cacheSlot i c
          s.setSlot i ((s.slot i).setPin p true)
        else s
      s.scanSegment p x i (fun s => s.goOn a ahead)
  | _, _ => s.endTurnOf (.verify p)

/-- The recovery scan takes a header, read or recovered (R167); the copy of one it needs is recovered from `o`. -/
def recoveryHeader (s : State) (x : Recovery) (o : Nat) (h : SegHeader) (l : List Entry) : State :=
  let r := partNumber x.part
  let s := s.setLandmark r s.msc.head.lane o h l
  match x.action h with
  | .recover => s.startCopy (s.newAcc r h.number (some h.attempt) o false none)
  | .replace => (s.setRecovery (x.cutAt h.number)).startCopy (s.newAcc r h.number (some h.attempt) o false none)
  | .finish => s.endPartition x (s.partOffset r s.msc.head.lane o)

/-- A recovered copy of the recovery scan (R167): applied, or the partition's end for any other header. A header that was recovered and not read leaves the landmark as it is (R74, R166; DESIGN CHOICE, log entry 92). -/
def recoveryRecovered (s : State) (x : Recovery) (a : Acc) (c : Segment) (ahead : Bool) : State :=
  let r := partNumber x.part
  match x.action c.header with
  | .recover => (s.setRecovery (x.apply c.header c.entries a.lane a.offset (s.partOffset r a.lane (a.offset + 16)))).goOn a ahead
  | .replace =>
    (s.setRecovery ((x.cutAt c.header.number).apply c.header c.entries a.lane a.offset (s.partOffset r a.lane (a.offset + 16)))).goOn a ahead
  | .finish => s.endPartition x (s.partOffset r a.lane a.offset)

/-- The segment of a Truncate's find is recovered into the slot taken for it (R111, R135), at the place of the find. -/
def truncateRecovered (s : State) (p : Port) (a : Acc) (c : Segment) : State :=
  if s.stopping then s.endStopped
  else
    match s.copySlot p with
    | none => s.endTruncate p .readFault
    | some i =>
      (s.setSlot i { s.slot i with header := c.header, entries := c.entries, payload := c.payload }).truncateDone p a.part i i
        (s.slot i).lane (s.slot i).offset (s.cutObject p)

/-- The scan pending abandonment whose turn is in progress, and not stopped by a Port Cut (R154, R155). -/
def abandoning (s : State) : Option (Port × ScanState) :=
  if s.stopping then none
  else
  match s.job with
  | some (.verify p) =>
    (match s.rdu.scans.get p with
    | some x => if x.pending then some (p, x) else none
    | none => none)
  | _ => none

/-- A header that a header scan could not read is recovered (R76): it is taken as a header read, unless the scan was stopped (R83) or is pending abandonment, whose read pass ends here (R155). -/
def headerRecovered (s : State) (a : Acc) (c : Segment) (ahead : Bool) : State :=
  if s.stopping then s.endStopped
  else
    match s.abandoning with
    | some (p, x) => s.abandonScan p x
    | none =>
      match s.msc.scan with
      | none => s
      | some x =>
        let here := s.msc.head
        s.scanHeader x a.lane a.offset c.header c.entries (fun s a => (s.setMsc { s.msc with head := here }).beginCopy a)
          (fun s => if ahead then s.relocate (targetOf a.lane (a.offset + 16)) .scan else s.streamFor .scanning)

/-- A segment is recovered (R144): the report to the HCM, and the work that asked for it goes on. `ahead` says that the look-ahead recovered it. -/
def recovered (s : State) (a : Acc) (ahead : Bool) : State :=
  match a.content with
  | none => s
  | some c =>
    let s := (s.countLane false 16 0).setAcc none
    if a.forScan then s.headerRecovered a c ahead
    else
      match s.job with
      | some (.read p) => s.readRecovered p a c ahead
      | some (.fill p) => s.fillRecovered p a c ahead
      | some (.verify p) => s.scanRecovered p a c ahead
      | some (.truncate p) => s.truncateRecovered p a c
      | some (.library .recoveryScan) =>
        (match s.dtc.recovery with
        | none => s
        | some x => s.recoveryRecovered x a c ahead)
      | _ => s

/-- A segment is unrecoverable (R146): its slot is freed, and the work that asked for it ends as its own rule states. -/
def unrecoverable (s : State) (a : Acc) : State :=
  let s := (s.countLane false 16 0).freeCopySlot.setAcc none
  if s.stopping then s.endStopped
  else if a.forScan then s.failScan
  else
    match s.job with
    | some (.read p) => s.endRead p .readFault .none
    | some (.fill p) => s.stopFill p
    | some (.verify p) =>
      (match s.rdu.scans.get p with
      | some x => s.endScan p x .readFault (some a.number)
      | none => s.endTurn)
    | some (.truncate p) => s.endTruncate p .readFault
    | some (.library .recoveryScan) =>
      (match s.dtc.recovery with
      | none => s
      | some x => s.endPartition x (s.partOffset a.part a.lane a.offset))
    | _ => s

/-- A read retry (R146): the head relocates back to the copy's first stripe. -/
def retry (s : State) (a : Acc) : State :=
  let s := s.countLane false 0 16
  (s.setAcc (some { a with retries := a.retries + 1, passed := 0 })).relocate (placeOf a.lane a.offset) .reread

/-- The look-ahead of a copy ends with fewer than 14 stripes (R145, R146): a fill and an abandoned scan stop, otherwise a retry is made, up to four. -/
def passEnds (s : State) (a : Acc) : State :=
  match s.abandoning with
  | some (p, x) => s.abandonScan p x
  | none =>
    match s.job with
    | some (.fill _) => s.unrecoverable a
    | _ => if a.retries < 4 then s.retry a else s.unrecoverable a

/-- Whether a copy whose header could not be read, and whose stripes name it, is of another segment than the one its work reads (R143, R153). -/
def ofOther (s : State) (a : Acc) (n : Nat) : Bool :=
  match s.job, a.slot with
  | some (.read _), some i => (s.slot i).header.number != n
  | some (.fill _), some i => (s.slot i).header.number != n
  | some (.verify p), _ => (match s.rdu.scans.get p with | some x => n < x.next | none => false)
  | _, _ => false

/-- A copy of another segment is passed over (R143): its slot is free again, or the pin on a slot held before is dropped. A fill's segment in hand has ended (R151). -/
def passOver (s : State) (a : Acc) : State :=
  let s := match s.job, a.slot with
    | some (.verify p), some i => s.giveBack i p
    | _, _ => s.freeCopySlot
  let s := s.setAcc none
  match s.job with
  | some (.fill p) => s.fillOn p
  | _ => s.streamFor .seeking

/-- The copy's stripes have passed the head (R144): 14 or more recover it, fewer are followed by the look-ahead, but for a copy that they name as another segment's, which is passed over (R143; DEDUCED, log entry 69), for a header scan that has been stopped, which ends at its segment's end (R83), and for a scan pending abandonment, whose read pass ends here, unless it is a retry, which ends with its look-ahead (R146, R155). -/
def copyPassed (s : State) (a : Acc) (readable : StripeSet) (named : Bool) (c : Segment) : State :=
  let other := !a.forScan && a.attempt.isNone && named && s.ofOther a c.header.number
  let a := { a with
    readable := a.readable ||| readable
    content := some c
    number := if a.attempt.isNone && named then c.header.number else a.number
    attempt := if a.attempt.isNone && named then some c.header.attempt else a.attempt }
  let s := s.headTo (a.offset + 16)
  if 14 ≤ stripeCount a.readable then s.recovered a false
  else if a.forScan && s.stopping then (s.setAcc none).endStopped
  else
    match if a.retries = 0 || other then s.abandoning else none with
    | some (p, x) => s.abandonScan p x
    | none =>
      if other && !s.stopping then s.passOver a
      else (s.setAcc (some { a with passed := 0 })).streamFor .lookingAhead

/-- The look-ahead passes on to in-lane offset `o`: its slots are counted (R145). -/
def aheadTo (s : State) (a : Acc) (o : Nat) : State :=
  let d := o - s.msc.head.offset
  (s.headTo o).setAcc (some { a with passed := a.passed + d })

/-- A rewrite stripe passed in the look-ahead (R145): its slot `o` lies behind the head and counts as passed (R71), and one of this copy's segment and attempt joins the set. -/
def rewritePassed (s : State) (a : Acc) (o segment attempt stripe : Nat) : State :=
  if s.pastEnd a.part o then (s.headTo (s.readEnd a.part)).passEnds a
  else
    let s := s.aheadTo a (o + 1)
    match s.rdu.acc with
    | none => s
    | some a =>
      if segment = a.number && a.attempt = some attempt then
        let a := { a with readable := addStripe a.readable stripe }
        if 14 ≤ stripeCount a.readable then s.recovered a true else s.setAcc (some a)
      else s

/-- A header passed in the look-ahead (R145): a later attempt of the segment replaces the copy. The look-ahead ends with it, and a scan pending abandonment stops there (R155). -/
def headerPassed (s : State) (a : Acc) (o : Nat) (h : SegHeader) (l : List Entry) : State :=
  if s.pastEnd a.part o then (s.headTo (s.readEnd a.part)).passEnds a
  else
    let s := (s.aheadTo a o).setLandmark a.part s.msc.head.lane o h l
    let later := match a.attempt with
      | none => true
      | some n => n < h.attempt
    if h.number = a.number && later then
      match s.abandoning with
      | some (p, x) => s.abandonScan p x
      | none => s.startCopy { a with attempt := some h.attempt, lane := s.msc.head.lane, offset := o, readable := 0, retries := 0, passed := 0, content := none }
    else s

/-! ## Headers met while seeking (R143) -/

/-- The partition's end met while seeking: a fill stops, a read or scan fails (R76, R144, R151). -/
def seekEnds (s : State) : State :=
  match s.job with
  | some (.fill p) => s.stopFill p
  | some (.read _) => s.failScan
  | some (.verify _) => s.failScan
  | _ => s

/-- A header, or with `attempt` none an unreadable one taken as the segment expected, met while seeking (R143). A read and a fill pass over a header numbered above the one they expect, as they do a lower or a repeated one (DESIGN CHOICE, log entry 97); a Verify Scan ends VERIFY_FAULT there (R154). -/
def seekHeader (s : State) (o number : Nat) (attempt : Option Nat) : State :=
  match s.job with
  | some (.read p) =>
    (match s.rdu.reads.get p with
    | none => s.endTurn
    | some x => if s.lacking x = some number then s.readCopy p x number attempt o else s)
  | some (.fill p) =>
    (match s.rdu.fills.get p with
    | .running r n => if n = number then s.fillCopy p r n attempt o else s
    | _ => s.endTurn)
  | some (.verify p) =>
    (match s.rdu.scans.get p with
    | none => s.endTurn
    | some x =>
      if number < x.next then s
      else if number = x.next then s.scanCopy p x number attempt o
      else s.endScan p x .verifyFault (some number))
  | _ => s

/-- The segment number a reading turn expects next (R143, R151, R153). -/
def expectedNumber (s : State) : Option Nat :=
  match s.job with
  | some (.read p) => (s.rdu.reads.get p).bind s.lacking
  | some (.fill p) => (match s.rdu.fills.get p with | .running _ n => some n | _ => none)
  | some (.verify p) => (s.rdu.scans.get p).map (·.next)
  | _ => none

end State

end Sys2Proof.Machine
end

