-- ==== Sys2Proof/Machine/Loading.lean ====
section
/-! DEFINITION. The Load Sequencer: entries to the states of the load machine (R22 to R36), the emergency stop (R34), cartridge removal (R21), power-on (R20) and the Device Reset (R37, R194). -/

namespace Sys2Proof.Machine

/-- The thread timer's value (R20). -/
def threadTime : Nat := 8

/-- The states in which a tension lost event makes an emergency stop, TagRead on the reset path apart (R34). -/
def tensionStates : LoadState → Bool
  | .tensioning => true
  | .recovering => true
  | .ready => true
  | .waking => true
  | .draining => true
  | .rewinding => true
  | .cleaning => true
  | _ => false

/-- The states of the load machine from which a Device Reset takes the reset path with a data cartridge, TagRead on that path apart (R37). -/
def resetPathStates : LoadState → Bool
  | .tensioning => true
  | .recovering => true
  | .ready => true
  | .standby => true
  | .waking => true
  | .draining => true
  | .rewinding => true
  | .closing => true
  | .faulted => true
  | _ => false

/-- Whether a slot belongs to a Truncate's uncompleted copy. -/
def isCopySlot (x : Slot) : Bool := x.copying.isSome

namespace State

/-! ## Entries to states -/

/-- The load machine enters a state. -/
def enter (s : State) (x : LoadState) : State := s.setLsq { s.lsq with state := x }

/-- The interval timer stopped (R163). -/
def stopInterval (s : State) : State := s.setDtc { s.dtc with interval := none }

/-- The interval timer started with the full interval, where that is not 0 (R163). -/
def startInterval (s : State) : State :=
  s.setDtc { s.dtc with interval := if s.sst.settings.checkpointInterval = 0 then none else some s.sst.settings.checkpointInterval }

/-- The copy is discarded (R13, R156). -/
def discardCopy (s : State) : State :=
  s.setDtc
    { s.dtc with
      copy := none, tagBehind := false, pendStale := none, pendCheckpoint := none, waiters := [], interval := none,
      failures := 0, atRisk := false, recovery := none }

/-- Both contexts become Lost (R73). -/
def loseContexts (s : State) : State := s.setMsc { s.msc with ctx := { a := none, b := none } }

/-- The context of a fresh load: object 0 of logical partition 1 (R26). -/
def freshContext : Context := { logical := 1, object := 0, marks := 0, atEnd := false }

/-- Entry to Threading (R23). -/
def enterThreading (s : State) : State :=
  s.setLsq { s.lsq with state := .threading, retries := 0, threadTimer := some threadTime }

/-- Entry to Recovering (R25): the recovery scan is handed over as library work. The DTC holds its state, and Query Drive reports it running, from its turn's grant on (R156, R166; DESIGN CHOICE, log entry 93). -/
def enterRecovering (s : State) : State :=
  let s := (s.enter .recovering).stopInterval
  s.setMsc { s.msc with libWork := some .recoveryScan }

/-- Entry to Ready with a Load in progress (R26). -/
def readyAfterLoad (s : State) : State :=
  let s := s.setLsq { s.lsq with state := .ready, writeFault := false, load := none }
  let s := s.setMsc { s.msc with ctx := { a := some freshContext, b := some freshContext } }
  let s := (s.addAttention .a .mediumChanged).addAttention .b .mediumChanged
  s.endLibrary .load .ok .none

/-- Entry to Ready on the reset path (R26). -/
def readyAfterReset (s : State) : State :=
  (s.setLsq { s.lsq with state := .ready, writeFault := false, resetPath := false }).addReason .driveReady

/-- Entry to Ready from TagRead, Tensioning or Recovering, in its two forms (R26, R163). -/
def enterReady (s : State) : State :=
  (if s.lsq.load.isSome then s.readyAfterLoad else s.readyAfterReset).startInterval

/-- Entry to Ready at the end of Waking: the interval timer starts when it was not running (R30, R163). -/
def wakeToReady (s : State) : State :=
  let s := s.enter .ready
  if s.dtc.interval.isNone then s.startInterval else s

/-- Entry to Standby (R28): tension is released and the transport parked; the meter is written to the store (R172) and the open lane record finished (R174). -/
def enterStandby (s : State) : State :=
  let s := (s.enter .standby).finishRecord.copyMeter
  s.setMsc { s.msc with motion := .parked, activity := .idle, atWrite := none }

/-- Entry to Waking (R30). -/
def enterWaking (s : State) : State := s.enter .waking

/-- A write in service whose session is closing for an unload and which still needs a slot ends NOT_READY (R92, R133). -/
def endWaitingWrite (s : State) (r : Part) : State :=
  match (s.row r).holder with
  | none => s
  | some p =>
    match (s.port p).inService with
    | none => s
    | some c =>
      if isWrite c.cmd && c.part = some r then
        match c.phase with
        | .awaitSlot => (((s.withdrawRequests p .credit).setIntake p .empty).endCommand p .notReady .none)
        | .placingMarks _ => (s.withdrawRequests p .mark).endCommand p .notReady .none
        | _ => s
      else s

/-- An open session closes at entry to Draining (R32): its holder's write that waits for a slot ends, and the row is Closing, or None with nothing left to write. -/
def drainSession (s : State) (r : Part) : State :=
  if (s.row r).state.isActive then ((s.endWaitingWrite r).requestClose r false) else s

/-- A fill with no segment in hand stops when the load state leaves Ready (R151). -/
def stopSeekingFill (s : State) : State :=
  match s.job with
  | some (.fill p) => if s.msc.activity = .seeking then s.haltTransport.stopFill p else s
  | _ => s

/-- Entry to Draining (R32): every open session closes, and a Verify Scan is pending abandonment (R155). -/
def enterDraining (s : State) : State :=
  let s := (s.enter .draining).stopSeekingFill
  let s := allParts.foldl (fun s r => s.drainSession r) s
  (s.pendScan .a).pendScan .b

/-- Whether Draining has come to its end (R32): every row None or Failed, and no port command but an Unload Request in service. -/
def drained (s : State) : Bool :=
  allParts.all (fun r => !(s.row r).state.isOpen) &&
    [Port.a, Port.b].all (fun p => match (s.port p).inService with | none => true | some c => c.cmd == .unloadRequest)

/-- Entry to Rewinding (R33): the unload rewind is handed over as library work. -/
def enterRewinding (s : State) : State :=
  let s := s.enter .rewinding
  s.setMsc { s.msc with libWork := some .unloadRewind }

/-- Entry to Closing (R33): the closing checkpoint is requested. -/
def enterClosing (s : State) : State := ((s.enter .closing).stopInterval).requestCheckpoint true

/-- A Failed row returns to None, its fault first added to its holder's attention set (R36, R56). -/
def dropFailed (s : State) (r : Part) : State :=
  if (s.row r).state = .failed then
    let s := match (s.row r).holder, (s.row r).fault with
      | some p, some f => s.addFault p f
      | _, _ => s
    s.rowToNone r
  else s

/-- Entry to Unthreading (R36): Failed rows return to None, the contexts are Lost, the read side is invalidated (R115), and the leader is to be released. -/
def enterUnthreading (s : State) (destination : Destination) : State :=
  let s := s.setLsq { s.lsq with state := .unthreading, destination := destination, threadTimer := none }
  let s := allParts.foldl (fun s r => s.dropFailed r) s
  ((s.loseContexts).invalidateSlots (fun _ => true)).stopInterval

/-- The forced path of an unload (R35): Closing when a data cartridge's copy is held, Unthreading otherwise. -/
def forcedPath (s : State) : State :=
  let s := s.setLsq { s.lsq with forced := true }
  if s.lsq.kind = .data && s.dtc.copy.isSome then s.enterClosing else s.enterUnthreading .ejected

/-! ## Ejected (R36) -/

/-- A host's Unload Request ends when its unload does (R31, R36). -/
def endUnloadRequest (s : State) (result : HostResult) (p : Port) : State :=
  match (s.port p).inService with
  | none => s
  | some c => if c.phase = .unloading then s.endCommand p result .none else s

/-- The result a Load in progress ends with at Ejected (R22 to R24). -/
def endLoad (s : State) (result : LibResult) (detail : LibDetail) : State :=
  (s.setLsq { s.lsq with load := none }).endLibrary .load result detail

/-- The Load that ends with the Unthreading it entered (R23, R24). -/
def endThreadedLoad (s : State) : State :=
  match s.lsq.load with
  | some .endsThreadFault => s.endLoad .threadFault .none
  | some (.endsCleaned n) => s.endLoad .cleaned (.passes n)
  | _ => s

/-- Entry to Ejected (R36): the copy is discarded and the meter written (R172), and the quality history is kept or emptied; the commands of the unload end, HOST_EJECT is raised for a host's own unload, and the sequencer's flags are cleared. -/
def ejectWith (s : State) (keepHistory : Bool) : State :=
  let missed := s.lsq.checkpointMissed
  let hostEject := (match s.lsq.holder with | .port _ => true | _ => false) && !s.lsq.joined
  let s := ((s.enter .ejected).discardCopy).copyMeter
  let s := s.setHcm { s.hcm with openRecord := none, history := if keepHistory then s.hcm.history else [], run := .none }
  let s := s.endLibrary .unload (if missed then .cmFault else .ok) .none
  let s := s.endThreadedLoad
  let s := (s.endUnloadRequest (if missed then .tagFault else .ok) .a).endUnloadRequest (if missed then .tagFault else .ok) .b
  let s := if hostEject then s.addReason .hostEject else s
  s.setLsq
    { s.lsq with
      holder := .nobody, writeFault := false, checkpointMissed := false, destination := .ejected, joined := false,
      forced := false, resetPath := false }

/-- Entry to Ejected (R36), which empties the quality history (R174). -/
def enterEjected (s : State) : State := s.ejectWith false

/-- The leader is released (R36): the machine enters the destination. A release from Faulted reports its travel to coordinate 0 (R71). -/
def leaderOut (s : State) : State :=
  let s := if s.lsq.forced then s.reportTravel s.msc.head.coord else s
  let s := s.setMsc { s.msc with head := if s.lsq.forced then { lane := s.msc.head.lane, coord := 0 } else s.msc.head }
  match s.lsq.destination with
  | .ejected => s.finishRecord.enterEjected
  | .seated => s.setLsq { s.lsq with state := .seated, kind := .absent, destination := .ejected, threadTimer := none, load := none, joined := false }

/-! ## The emergency stop (R34) -/

/-- Whether a command in service needs the transport, or a Verify Scan (R34). -/
def needsTransport (s : State) (p : Port) (c : InService) : Bool :=
  match c.phase with
  | .tape => true
  | .awaitSlot => c.cmd == .truncate
  | .reading =>
    (match s.rdu.reads.get p with
    | some x => x.phase != .delivering
    | none => c.cmd == .verifyScan)
  | _ => false

/-- A command that needed the transport ends TRANSPORT_FAULT (R34), a Verify Scan without its counts (R154; DESIGN CHOICE, log entry 71); one that a Port Cut is stopping is left to the Cut. -/
def faultTransport (s : State) (p : Port) : State :=
  match (s.port p).inService with
  | none => s
  | some c =>
    if s.needsTransport p c && !(s.port p).cut then
      let s := ((s.setRead p none).setScan p none).dropExpansions p
      let s := ((s.dropPins p).withdrawRequests p .truncate).dropCopy p
      s.endCommand p .transportFault .none
    else if s.needsTransport p c then ((s.setRead p none).setScan p none).dropExpansions p |>.dropPins p
    else s

/-- The transport is lost to all work: it stops, its turn ends, the commands that need it end TRANSPORT_FAULT, fills are abandoned and open sessions fail (R21, R34). -/
def loseTransport (s : State) : State :=
  let s := s.haltTransport.endTurn
  let s := s.setMsc { s.msc with turn := none, atWrite := none, libWork := none }
  let s := s.finishRecord
  let s := (((s.faultTransport .a).faultTransport .b).idleRead .a).idleRead .b
  let s := ((s.setFill .a .none).setFill .b .none).setAcc none
  let s := s.freeFilling
  let s := allParts.foldl (fun s r => s.loseSession r .transportFault) s
  (s.setDtc { s.dtc with recovery := none }).abandonCleaning

/-- The emergency stop (R34): an unload in progress, begun by a holder or joined on the reset path, goes on by the forced path (R35). A re-read not yet in flight is withdrawn (DESIGN CHOICE, log entry 60). The interval timer stays as it was: stopped, where the stop meets Tensioning or Recovering, though a copy is held (R163; DESIGN CHOICE, log entry 85). -/
def emergencyStop (s : State) : State :=
  let unloading := s.lsq.holder != .nobody || s.lsq.joined
  let s := (s.loseTransport.enter .faulted).addReason .tensionLost
  let s := s.setLsq { s.lsq with resetPath := false }
  let s := s.setDtc { s.dtc with pendLoad := none }
  let s := if s.lsq.load.isSome then s.endLoad .threadFault .none else s
  if unloading then s.forcedPath else s

/-! ## Removal (R21) -/

/-- The tag reader's transaction is ended as a failure without a response to a command it serves (R13, R158). -/
def dropTransaction (s : State) : State :=
  match s.dtc.reader with
  | none => s
  | some t =>
    let s := s.setDtc { s.dtc with reader := none }
    match t.kind with
    | .library a =>
      if s.lp.outstanding = some (.access a) && s.dtc.pendLibrary.isNone then s.setLp { s.lp with outstanding := none } else s
    | _ => s

/-- A cartridge pulled from any state but Ejected and Empty (R21). A read of the load machine that still waits for the tag reader is discarded with the cartridge (DESIGN CHOICE, log entry 80). -/
def pullCartridge (s : State) : State :=
  let s := s.loseTransport
  let s := allParts.foldl (fun s r => s.dropFailed r) s
  let s := ((s.loseContexts).invalidateSlots (fun _ => true)).dropTransaction
  let s := (s.setDtc { s.dtc with pendLoad := none }).discardCopy
  let s := (s.endLibrary .load .noCartridge .none).endLibrary .unload .noCartridge .none
  let s := (s.endUnloadRequest .noCartridge .a).endUnloadRequest .noCartridge .b
  (s.setLsq (Lsq.powerOn .empty .ejected)).addReason .cartridgePulled

/-- The cartridge has left the drive. -/
def noCartridge (s : State) : State := s.setCart { tag := none, writeTab := false }

/-! ## Device Reset (R194) and power-on (R20) -/

/-- A reset cause added (R193). -/
def addCause (s : State) (x : Causes) : State :=
  s.setSst { s.sst with causes :=
    { powerOn := s.sst.causes.powerOn || x.powerOn, resetLine := s.sst.causes.resetLine || x.resetLine,
      resetCommand := s.sst.causes.resetCommand || x.resetCommand } }

/-- A host port at a Device Reset: everything but its sector and its options (R44, R46, R184). -/
def resetPortState (x : PortState) : PortState :=
  { PortState.powerOn x.sector with options := x.options }

/-- The load machine's state, destination and reset path after a Device Reset (R37). -/
def resetLoad (x : Lsq) : Lsq :=
  let y : Lsq := { Lsq.powerOn x.state .ejected with kind := x.kind, writeFault := x.writeFault }
  match x.state with
  | .tagRead =>
    if x.resetPath then
      (match x.kind with
      | .cleaning => { y with state := .unthreading }
      | _ => { y with state := .tensioning, resetPath := true })
    else { y with state := .seated }
  | .threading => { y with state := .unthreading, destination := .seated }
  | .unthreading => { y with destination := x.destination, forced := x.forced }
  | .cleaning => { y with state := .unthreading }
  | st =>
    if resetPathStates st then
      (match x.kind with
      | .cleaning => { y with state := .unthreading }
      | _ => { y with state := .tensioning, resetPath := true })
    else y

/-- The effects of a Device Reset at one event (R194). The open lane record is discarded, but for one that a lateral move made before the stop has finished (R174). The report of the movement that it cuts short (R171) may write the meter's copy or raise the clean call, as any report (R172; DESIGN CHOICE, log entry 86). -/
def resetDevice (s : State) (cause : Causes) : State :=
  let s := s.haltTransport
  let s := s.setHcm { s.hcm with openRecord := none, run := .none }
  let s := s.setMsc { Msc.powerOn with head := s.msc.head }
  let s := s.setPorts { a := resetPortState s.ports.a, b := resetPortState s.ports.b }
  let s := s.setRows { p0 := Row.empty, p1 := Row.empty, p2 := Row.empty, p3 := Row.empty }
  let s := ((s.setRcx Rcx.reset).setSbm Sbm.reset).setRdu Rdu.reset
  let s := s.setWvu (Wvu.cleared { Rate.powerOn with level := s.wvu.rate.level })
  let s := (s.setDtc Dtc.reset).setLsq (resetLoad s.lsq)
  let s := s.setLp { s.lp with receiver := .hunting, newDivisors := [], tx := [], outstanding := none, unsent := none }
  (s.addReason .resetDone).addCause cause

/-- The load machine at power-on (R20). -/
def powerOnLoad (present threaded : Bool) : Lsq :=
  if !present then Lsq.powerOn .empty .ejected
  else if threaded then Lsq.powerOn .unthreading .seated
  else Lsq.powerOn .seated .ejected

/-- The part at power-on: what the Settings Store keeps is restored, the rest takes its power-on value, and the meter thresholds are judged (R20, R170, R193). The queue of waiting commands, the reset line and the model's own counters stay. -/
def switchOn (s : State) (cartridge : Option Tag) (threaded tab : Bool) : State :=
  let t := s.sst
  let s : State :=
    { State.reset with
      pending := s.pending, clock := s.clock, free := s.free, resetLine := s.resetLine
      lsq := powerOnLoad cartridge.isSome threaded
      cart := { tag := cartridge, writeTab := cartridge.isSome && tab }
      ports := { a := PortState.powerOn t.grants.a, b := PortState.powerOn t.grants.b }
      hcm := Hcm.restored t.meter t.level t.reason
      sst := { t with causes := Causes.atPowerOn }
      lp := Lp.powerOn t.settings.divisor }
  s.judgeMeter

end State

end Sys2Proof.Machine
end

