-- ==== Sys2Proof/Machine/Tags.lean ====
section
/-! DEFINITION. The tag reader: its grants (R159) and the ends of its transactions by kind (R12, R15, R17, R18, R22, R37, R161, R164, R165, R179). -/

namespace Sys2Proof.Machine

/-- The tag transaction timeout in seconds (R158). -/
def tagTimeout : Nat := 2

/-- Whether two moments' order puts a checkpoint before a library access (R159); a missing one never comes first. -/
def checkpointFirst : Option PendingCheckpoint → Option PendingAccess → Bool
  | none, _ => false
  | some _, none => true
  | some c, some a => c.since ≤ a.since

namespace State

/-! ## Grants (R159) -/

/-- A transaction in flight. -/
def startTransaction (s : State) (kind : TagKind) (snapshot : Option Directory) (waiters : List Part) : State :=
  s.setDtc { s.dtc with reader := some { kind := kind, snapshot := snapshot, timeout := tagTimeout, waiters := waiters, cutSince := false } }

/-- The kind of transaction a read of the load machine is. -/
def loadKind : LoadRequest → TagKind
  | .loadRead => .loadRead
  | .reread => .reread
  | .passDecrement n => .passDecrement n

/-- A stale mark ends done (R161): the copy's Current flag is false, and the rows that waited at its grant may write. -/
def staleDone (s : State) (waiters : List Part) (clearBehind : Bool) : State :=
  let left := s.dtc.waiters.filter (fun r => !waiters.contains r)
  s.setDtc
    { s.dtc with
      copy := s.dtc.copy.map (fun d => { d with current := false })
      tagBehind := s.dtc.tagBehind && !clearBehind
      waiters := left
      pendStale := if left.isEmpty then s.dtc.pendStale else some (s.dtc.pendStale.getD s.clock) }

/-- A pending stale mark granted (R160): none is made when the copy is already stale and the tag not behind, and it is done at once. -/
def grantStale (s : State) : State :=
  let s := s.setDtc { s.dtc with pendStale := none }
  if s.copyCurrent || s.dtc.tagBehind then
    s.startTransaction .staleMark (s.dtc.copy.map (fun d => { d with current := false })) s.dtc.waiters
  else s.staleDone s.dtc.waiters false

/-- The Current flag the closing checkpoint writes (R33, R35): true when no session has failed and the path is not the forced one. -/
def closingFlag (s : State) : Bool :=
  !s.lsq.forced && !s.lsq.writeFault && allParts.all (fun r => (s.row r).state != .failed)

/-- A pending checkpoint granted (R164): its snapshot is taken, a closing one with the flag R33 decides. -/
def grantCheckpoint (s : State) (c : PendingCheckpoint) : State :=
  let s := s.setDtc { s.dtc with pendCheckpoint := none }
  s.startTransaction (.checkpoint c.closing)
    (s.dtc.copy.map (fun d => { d with current := if c.closing then s.closingFlag else d.current })) []

/-- A pending library access granted. -/
def grantAccess (s : State) (a : PendingAccess) : State :=
  (s.setDtc { s.dtc with pendLibrary := none }).startTransaction (.library a.access) none []

/-- The grant of R159 on an idle reader: a read of the load machine, then a stale mark, then the earlier of a checkpoint and a library access. -/
def grantReader (s : State) : State :=
  match s.dtc.reader with
  | some _ => s
  | none =>
    match s.dtc.pendLoad with
    | some q => (s.setDtc { s.dtc with pendLoad := none }).startTransaction (loadKind q.request) none []
    | none =>
      if s.dtc.pendStale.isSome then s.grantStale
      else
        match s.dtc.pendCheckpoint, s.dtc.pendLibrary with
        | some c, a => if checkpointFirst (some c) a then s.grantCheckpoint c else
            (match a with | some a => s.grantAccess a | none => s)
        | none, some a => s.grantAccess a
        | none, none => s

/-! ## Ends of the load machine's reads (R12, R22, R37, R179) -/

/-- A Load ends as its cartridge is sent back unthreaded (R22, R179). -/
def loadEjects (s : State) (result : LibResult) (detail : LibDetail) : State :=
  (s.enterEjected).endLoad result detail

/-- A good load read of a data cartridge (R12, R22). -/
def dataLoaded (s : State) (t : Tag) : State :=
  let s := s.setLsq { s.lsq with kind := .data }
  (s.setDtc { s.dtc with copy := some (copyOf t), tagBehind := false }).enterThreading

/-- An expired cleaning cartridge is sent back (R179): the quality history stays, though the entry to Ejected empties it otherwise (R174; DESIGN CHOICE, log entry 76). -/
def expiredEjects (s : State) : State := (s.ejectWith true).endLoad .cleanerExpired (.passes 0)

/-- A good load read of a cleaning cartridge (R179): an expired one is sent back, otherwise the pass decrement is asked for. -/
def cleaningLoaded (s : State) (t : Tag) : State :=
  let s := s.setLsq { s.lsq with kind := .cleaning }
  if t.passes = 0 then s.expiredEjects
  else s.setDtc { s.dtc with pendLoad := some { since := s.clock, request := .passDecrement (t.passes - 1) } }

/-- The end of the load read (R22). -/
def loadReadEnds (s : State) (ok : Bool) : State :=
  if s.lsq.state = .tagRead && !s.lsq.resetPath then
    match ok, s.cart.tag with
    | true, some t =>
      if tagOk t then (if isDataType t.type then s.dataLoaded t else s.cleaningLoaded t)
      else s.loadEjects .cmFault .none
    | _, _ => s.loadEjects .cmFault .none
  else s

/-- A good re-read of the reset path (R37). -/
def rereadGood (s : State) (t : Tag) : State :=
  let s := s.setDtc { s.dtc with copy := some (copyOf t), tagBehind := false }
  if t.current then s.enterReady else s.enterRecovering

/-- The end of the reset path's re-read (R37); one that ends in Faulted does not act. -/
def rereadEnds (s : State) (ok : Bool) : State :=
  if s.lsq.state = .tagRead && s.lsq.resetPath then
    match ok, s.cart.tag with
    | true, some t =>
      if tagOk t && isDataType t.type then s.rereadGood t else (s.addReason .tagUnreadable).enterRewinding
    | _, _ => (s.addReason .tagUnreadable).enterRewinding
  else s

/-- The end of the pass decrement (R179): the tag takes it and the cleaning run waits for its turn, or the cartridge is sent back. -/
def decrementEnds (s : State) (ok : Bool) (passes : Nat) : State :=
  if ok then
    let s := s.setCart { s.cart with tag := s.cart.tag.map (fun t => { t with passes := passes }) }
    (s.setHcm { s.hcm with run := .waiting passes }).enterThreading
  else s.loadEjects .cmFault .none

/-! ## Ends of the directory's writes (R161, R164, R165) -/

/-- The tag takes a snapshot (R13). -/
def writeTag (s : State) (snapshot : Option Directory) : State :=
  match snapshot with
  | none => s
  | some d => s.setCart { s.cart with tag := s.cart.tag.map (fun t => tagWithDirectory t d d.current) }

/-- A stale mark fails (R161): the rows that waited at its grant are lost, and a new one is pending for those that came since. -/
def staleFailed (s : State) (waiters : List Part) : State :=
  let s := waiters.foldl (fun s r => if s.dtc.waiters.contains r then s.loseSession r .tagFault else s) s
  s.setDtc { s.dtc with pendStale := if s.dtc.waiters.isEmpty then s.dtc.pendStale else some (s.dtc.pendStale.getD s.clock) }

/-- A checkpoint ends done (R164). -/
def checkpointDone (s : State) (t : Transaction) : State :=
  let s := s.writeTag t.snapshot
  s.setDtc { s.dtc with failures := 0, atRisk := false, tagBehind := s.dtc.tagBehind && t.cutSince }

/-- A checkpoint fails (R165): at the third failure Directory At Risk goes on and is raised once. -/
def checkpointFailed (s : State) : State :=
  let n := s.dtc.failures + 1
  let raise := 3 ≤ n && !s.dtc.atRisk
  let s := s.setDtc { s.dtc with failures := n, atRisk := s.dtc.atRisk || decide (3 ≤ n) }
  if raise then s.addReason .directoryAtRisk else s

/-- The closing checkpoint has ended, well or not, and the machine leaves Closing (R33). -/
def leaveClosing (s : State) (ok : Bool) : State :=
  if s.lsq.state = .closing then
    (s.setLsq { s.lsq with checkpointMissed := s.lsq.checkpointMissed || !ok }).enterUnthreading .ejected
  else s

/-! ## Ends of library accesses (R14 to R18) -/

/-- A library access ends: its response is sent where the command that asked for it is still outstanding (R15, R187). -/
def endAccess (s : State) (a : LibAccess) (result : LibResult) (detail : LibDetail) : State :=
  if s.dtc.pendLibrary.isNone then s.endLibrary (.access a) result detail else s

/-- A session that has lost the right to write closes, after a write in service (R19, R50). -/
def closeProtected (s : State) (r : Part) : State :=
  if s.writeProtected r then s.requestClose r true else s

/-- A Lay Out Partitions transaction done (R17). -/
def layOutDone (s : State) (lanes : List Nat) : State :=
  match s.cart.tag with
  | none => s
  | some t =>
    let d := freshDirectory t.type lanes
    let s := s.setCart { s.cart with tag := some (tagWithDirectory t d true) }
    let s := s.setDtc { s.dtc with copy := some d, tagBehind := false, pendCheckpoint := none }
    let s := (s.loseContexts).invalidateSlots (fun _ => true)
    let s := s.dropLandmark (fun _ => true)
    (s.addAttention .a .layoutChanged).addAttention .b .layoutChanged

/-- A Lock Partition transaction done (R18, R19). -/
def lockDone (s : State) (part : Nat) (value : Bool) : State :=
  let lock := fun (l : List PartDir) => l.modify part (fun d => { d with locked := value })
  let s := s.setCart { s.cart with tag := s.cart.tag.map (fun t => { t with parts := lock t.parts }) }
  let s := s.setDtc { s.dtc with copy := s.dtc.copy.map (fun d => { d with parts := lock d.parts }) }
  s.closeProtected (partNumber part)

/-- The end of a library access (R14 to R18). -/
def accessEnds (s : State) (a : LibAccess) (ok : Bool) : State :=
  match ok, s.cart.tag with
  | true, some t =>
    (match a with
    | .readAttr id => s.endAccess a .ok (.bytes (attributeOf t id))
    | .writeAttr id b => (s.setCart { s.cart with tag := some (tagWithAttribute t id b) }).endAccess a .ok .none
    | .lock part value => (s.lockDone part value).endAccess a .ok .none
    | .layOut lanes => (s.layOutDone lanes).endAccess a .ok .none)
  | _, _ => s.endAccess a .cmFault .none

/-! ## The end of a transaction (R158) -/

/-- The transaction in flight ends, with success or without, and its kind decides what follows (R158). -/
def endTransaction (s : State) (ok : Bool) : State :=
  match s.dtc.reader with
  | none => s
  | some t =>
    let s := s.setDtc { s.dtc with reader := none }
    match t.kind with
    | .loadRead => s.loadReadEnds ok
    | .reread => s.rereadEnds ok
    | .passDecrement n => s.decrementEnds ok n
    | .staleMark => if ok then (s.writeTag t.snapshot).staleDone t.waiters (!t.cutSince) else s.staleFailed t.waiters
    | .checkpoint closing =>
      let s := if ok then s.checkpointDone t else s.checkpointFailed
      if closing then s.leaveClosing ok else s
    | .library a => s.accessEnds a ok

end State

end Sys2Proof.Machine
end

