-- ==== Sys2Proof/Machine/Turns.lean ====
section
/-! DEFINITION. The transport arbiter: the choice of a turn (R64, R65), the beginnings of the work (R62), the leaving procedure (R67), arrivals of relocations (R69), and the wake from Standby (R29). -/

namespace Sys2Proof.Machine

/-- The load state in which a piece of library work may be granted (R65). -/
def libraryState : LibWork → LoadState
  | .recoveryScan => .recovering
  | .returnHome => .recovering
  | .unloadRewind => .rewinding
  | .cleaningRun => .cleaning

/-- The cleaning timer's value in seconds (R180). -/
def cleaningTime : Nat := 45

namespace State

/-- Whether port work may be granted in the load state (R65). -/
def portWorkAllowed (s : State) : Bool := s.lsq.state == .ready || s.lsq.state == .draining

/-- The job that a piece of a port's work is: its command's job carries the goal taken at the grant (R78 to R84), in the logical partition the command was taken with (R48). -/
def jobOf (s : State) (p : Port) : PortWork → Option Job
  | .drain r => some (.drain r p)
  | .fill => some (.fill p)
  | .command =>
    match (s.port p).inService with
    | none => none
    | some c =>
      match c.cmd, c.part with
      | .locate l o, some r => some (.position p (s.goalLocate r l o))
      | .spaceObjects back n, some r =>
        (s.workContext p).map (fun x => .position p (s.goalSpaceObjects r x.logical x.object back n))
      | .spaceMarks back n, some r =>
        (s.workContext p).map (fun x => .position p (s.goalSpaceMarks r x.logical x.marks back n))
      | .seekEnd, some r => (s.workContext p).map (fun x => .position p (s.goalSeekEnd r x.logical))
      | .rewind l, some r => some (.position p (goalRewind r (l.getD ((c.start.map (·.logical)).getD 1))))
      | .truncate, some _ => some (.truncate p)
      | .readRecord _, some _ => some (.read p)
      | .verifyScan, some _ => some (.verify p)
      | _, _ => none

/-- Library work in a state that allows it (R64 step 1, R65). -/
def libraryChoice (s : State) : Option Job :=
  match s.msc.libWork with
  | none => none
  | some w => if s.lsq.state = libraryState w then some (.library w) else none

/-- The port whose first eligible work is granted (R64 steps 2 and 3). -/
def portChoice (s : State) : Option Port :=
  let p := s.msc.lastServed
  let q := otherPort p
  if (s.portWork p).isSome && ((s.portWork q).isNone || s.msc.burst < 8) then some p
  else if (s.portWork q).isSome then some q
  else none

/-- The last-served port and burst count after a grant to port `p` (R64). -/
def serve (s : State) (p : Port) : State :=
  if p = s.msc.lastServed then s else s.setMsc { s.msc with lastServed := p, burst := 0 }

/-- The fills posted and not granted at this boundary are withdrawn (R151). -/
def withdrawFills (s : State) (x : Job) : State :=
  let drop := fun (s : State) (p : Port) =>
    match s.rdu.fills.get p with
    | .posted .. => if x = .fill p then s else s.setFill p .none
    | _ => s
  drop (drop s .a) .b

/-! ## Beginnings -/

/-- The work of a turn begins (R62): with a relocation, a header scan, or streaming on. -/
def beginJob (s : State) (x : Job) : State :=
  match x with
  | .position _ g => s.moveToGoal g
  | .read p =>
    (match s.rdu.reads.get p with
    | none => s.endTurn
    | some x => (s.setRead p (some { x with phase := .reading, lastRead := none })).beginScan x.part (.object x.object))
  | .verify p =>
    (match s.rdu.scans.get p with
    | none => s.endTurn
    | some x =>
      if x.pending then s.abandonScan p x else s.beginScan x.part (.object x.start))
  | .truncate p =>
    (match (s.port p).inService.bind (·.part) with
    | none => s.endTurn
    | some r => s.beginScan r (.object (s.cutObject p)))
  | .drain r _ => s.relocate (s.writePlace r) .write
  | .fill p =>
    (match s.rdu.fills.get p with
    | .posted r n => (s.setFill p (.running r n)).fillMoves p
    | _ => s.endTurn)
  | .library .recoveryScan => s.beginRecovery
  | .library .returnHome => s.relocate { lane := 0, coord := 0 } .home
  | .library .unloadRewind => s.relocate { lane := 0, coord := 0 } .home
  | .library .cleaningRun =>
    (match s.hcm.run with
    | .waiting n => (s.setHcm { s.hcm with run := .running n cleaningTime }).stream .cleaning
    | _ => s.endTurn)

/-- Whether the leaving procedure of a row is done (R67 step 4): nothing is due and nothing awaits its outcome. -/
def leftClean (s : State) (r : Part) : Bool := !s.outstanding r && !s.rewriteDue r && (s.nextReady r).isNone

/-- The work that would abandon port `p`'s Verify Scan, among what is eligible (R155): the other port's command work, a drain turn with a demand, library work. -/
def contenders (s : State) (p : Port) : List Contender :=
  (if s.commandEligible (otherPort p) then [.otherCommand] else []) ++ (if s.msc.libWork.isSome then [.libraryWork] else [])
    ++ (allParts.filter (fun r => s.drainEligible r && s.drainDemand r)).map Contender.drain

/-- A Verify Scan's turn is granted: it takes the committed counts as they stand (R153), and the work eligible already does not abandon it (R155). -/
def grantScan (s : State) : Job → State
  | .verify p =>
    (match s.rdu.scans.get p with
    | some x =>
      s.setScan p (some
        { x with
          granted := true, objects := s.committedObjects x.part, segments := s.committedSegments x.part,
          marks := s.committedMarks x.part, already := s.contenders p })
    | none => s)
  | _ => s

/-- A turn begins for a job; where the transport has not left another session's write point, that is left first (R66, R67), and the lane record of the yielded drain turn is finished at once (R174), judged before the movement that has brought the head there is reported (R175; DESIGN CHOICE, log entry 75). -/
def startTurn (s : State) (x : Job) : State :=
  let s := (s.withdrawFills x).grantScan x
  match s.msc.atWrite with
  | none => (s.setMsc { s.msc with turn := some { job := x, written := 0, stopping := false, leaving := none } }).beginJob x
  | some r =>
    if isDrainOf r x then
      (s.setMsc { s.msc with turn := some { job := x, written := 0, stopping := false, leaving := none }, atWrite := none }).choose r
    else
      let s := s.finishRecord
      let s := s.setMsc { s.msc with turn := some { job := x, written := 0, stopping := false, leaving := some r }, atWrite := none }
      if s.leftClean r then
        (s.setMsc { s.msc with turn := some { job := x, written := 0, stopping := false, leaving := none } }).beginJob x
      else s.choose r

/-- The choice at a turn boundary (R64). -/
def chooseTurn (s : State) : State :=
  match s.libraryChoice with
  | some x => (s.setMsc { s.msc with libWork := none }).startTurn x
  | none =>
    if s.portWorkAllowed then
      match s.portChoice with
      | none => s
      | some p =>
        match (s.portWork p).bind (s.jobOf p) with
        | none => s
        | some x => (s.serve p).startTurn x
    else s

/-- A drain turn that waits after a backhitch, or runs out its window, yields at once when other work is eligible and it has nothing left to write (R66, R130). -/
def drainYields (s : State) : Option (Part × Port) :=
  match s.msc.turn with
  | some { job := .drain r p, leaving := none, .. } =>
    (match s.msc.activity with
    | .backhitched => if s.otherEligible p then some (r, p) else none
    | .runningOut => if (s.yieldDue r).isSome then some (r, p) else none
    | _ => none)
  | _ => none

/-- The yield of a waiting drain turn (R66). -/
def yieldWaiting (s : State) : State :=
  match s.drainYields with
  | some (r, p) => s.yieldTurn r p
  | none => s

/-- A turn boundary (R64): a waiting drain turn yields, and with no turn in progress the next is chosen. -/
def grantTurn (s : State) : State :=
  let s := s.yieldWaiting
  if s.msc.turn.isNone then s.chooseTurn else s

/-- The leaving procedure is done, and the chosen work begins (R67), the segments written so far not its own (R66), and the lane record of the procedure's own writing finished (R174; DESIGN CHOICE, log entry 74), judged before the procedure's last movement is reported (R175; DESIGN CHOICE, log entry 75); a turn stopped meanwhile ends. -/
def leavingDone (s : State) : State :=
  match s.msc.turn with
  | none => s
  | some t =>
    match t.leaving with
    | none => s
    | some r =>
      if s.leftClean r then
        let s := s.finishRecord
        let s := s.setMsc { s.msc with turn := some { t with leaving := none, written := 0 } }
        if t.stopping then s.endTurn else s.beginJob t.job
      else s

/-! ## Arrivals (R69) -/

/-- The head at the target of the relocation, with its travel reported: the motion is Streaming after a lane hit, Stopped after a miss (R69, R71); a move to another lane finishes the open lane record (R174), judged before the travel (R175; DESIGN CHOICE, log entry 75). -/
def landed (s : State) (start target : Place) (hit : Bool) : State :=
  let s := if start.lane = target.lane then s else s.finishRecord
  let s := s.setMsc { s.msc with head := target, motion := if hit then .streaming else .stopped, activity := .idle }
  s.reportTravel (distance start.coord target.coord)

/-- A relocation to lane 0, coordinate 0 ends: its turn ends, and the machine goes on from Recovering to Ready or from Rewinding to Closing, or to Unthreading where no copy is held (R25, R33, R37). -/
def arriveHome (s : State) : State :=
  let s := s.endTurn
  match s.lsq.state with
  | .recovering => s.enterReady
  | .rewinding => if s.dtc.copy.isSome then s.enterClosing else s.enterUnthreading .ejected
  | _ => s

/-- Whether the copy under recovery is being read again, in a retry (R146). -/
def retrying (s : State) : Bool := (s.rdu.acc.map (fun a => a.retries != 0)).getD false

/-- The work that asked for a relocation goes on at its arrival. A scan pending abandonment stops there, unless a retry, whose relocation this is, is the read pass in hand (R146, R155; DESIGN CHOICE, log entry 65). A fill back at the end of its copy has no segment in hand, and goes on within its limits (R151). -/
def proceed (s : State) (next : Next) : State :=
  match next with
  | .goal =>
    (match s.job with
    | some (.position p g) => s.arrive p g
    | _ => s.endTurn)
  | .scan =>
    (match s.abandoning with
    | some (p, x) => s.abandonScan p x
    | none => s.streamFor .scanning)
  | .write =>
    (match s.writingRow with
    | some r => s.choose r
    | none => s)
  | .reread =>
    (match s.abandoning with
    | some (p, x) => if s.retrying then s.streamFor .reading else s.abandonScan p x
    | none => s.streamFor .reading)
  | .resume =>
    (match s.abandoning, s.job with
    | some (p, x), _ => s.abandonScan p x
    | none, some (.fill p) => s.fillMoves p
    | none, _ => s.streamFor .seeking)
  | .home => s.arriveHome
  | .recover => s.streamFor .seeking

/-- Whether a stopped turn ends at the arrival of a relocation (R70, R83). A leaving procedure goes on to its own end, and a retry made after the stop, for a segment that is read to its end (R58), reads its copy again (DEDUCED, log entry 15). -/
def endsAtArrival (s : State) (next : Next) : Bool :=
  s.stopping && next != .write && (next != .reread || s.rdu.acc.isNone)

/-- Relocation complete (R69). -/
def arriveRelocation (s : State) : State :=
  match s.msc.activity with
  | .relocating start target hit next =>
    let s := s.landed start target hit
    if s.endsAtArrival next then
      s.endStopped
    else s.proceed next
  | _ => s

/-! ## After each step -/

/-- Work that the MSC would grant in Ready wakes a part in Standby (R29). -/
def wakeForWork (s : State) : State :=
  if s.lsq.state = .standby && ((s.portWork .a).isSome || (s.portWork .b).isSome) then s.enterWaking else s

/-- The work noted at the grant of port `p`'s scan (R155). -/
def scanNoted (s : State) (p : Port) : List Contender := ((s.rdu.scans.get p).map (·.already)).getD []

/-- Whether work that abandons port `p`'s Verify Scan has become eligible (R155). -/
def scanOutdone (s : State) (p : Port) : Bool := (s.contenders p).any (fun c => !(s.scanNoted p).contains c)

/-- Whether work noted at the scan's grant is no longer eligible. -/
def scanRelieved (s : State) (p : Port) : Bool := (s.scanNoted p).any (fun c => !(s.contenders p).contains c)

/-- The work noted at the scan's grant and no longer eligible counts again when it next becomes so (R155). -/
def forgetContenders (s : State) (p : Port) : State :=
  match s.rdu.scans.get p with
  | none => s
  | some x => s.setScan p (some { x with already := x.already.filter (fun c => (s.contenders p).contains c) })

/-- A Verify Scan whose turn is in progress becomes pending abandonment when contending work becomes eligible (R155); work eligible at its grant counts only when it becomes so anew (DESIGN CHOICE, log entry 65). -/
def noteAbandonment (s : State) : State :=
  match s.job with
  | some (.verify p) => if s.scanOutdone p then s.pendScan p else if s.scanRelieved p then s.forgetContenders p else s
  | _ => s

end State

end Sys2Proof.Machine
end

