-- ==== Sys2Proof/Machine/Service.lean ====
section
/-! DEFINITION. The Access and Session Controller: arrivals (R39), taking into service (R41), grant resolution (R48), opening, continuing and closing sessions (R52 to R55), the work of each host command when it is taken, and the stops of Port Cut and port reset (R58 to R60). -/

namespace Sys2Proof.Machine

/-- The load state check (R27): none when a non-query command is taken. -/
def loadCheck : LoadState → Option HostResult
  | .empty => some .noCartridge
  | .ready => none
  | .standby => none
  | .waking => none
  | _ => some .notReady

/-- The detail of SESSION_HELD (R43, R52). -/
def heldDetail (x : RowState) : Detail := if x = .closing then .closing else .none

/-- A refusal: its result and detail. -/
structure Refused where
  result : HostResult
  detail : Detail
deriving DecidableEq, Repr

/-- A command just taken into service (R41), with the options read then (R89, R131). -/
def taken (x : Options) (q : Queued) : InService :=
  { tag := q.tag, cmd := q.cmd, part := none, right := none, start := none, compress := x.compression, verified := x.verified, lost := false, phase := .waitFailed }

namespace State

/-! ## Resolution (R48, R73) -/

/-- The logical partition a command uses (R48): named, the context's, or 1 for a Rewind that names none while the context is Lost (R73). -/
def logicalOf (s : State) (p : Port) : HostCmd → Option Nat
  | .locate l _ => some l
  | .rewind (some l) => some l
  | .rewind none => some (((s.context p).map (·.logical)).getD 1)
  | _ => (s.context p).map (·.logical)

/-- Grant resolution of a logical partition with the right a command needs (R48). -/
def resolve (s : State) (p : Port) (l : Nat) (need : Right) : Except Refused Grant :=
  match s.grantEntry p l with
  | none => .error { result := .notGranted, detail := .none }
  | some g =>
    if (s.partDir g.part).isNone then .error { result := .noSuchPartition, detail := .none }
    else if need = .readWrite && g.right = .read then .error { result := .notGranted, detail := .readOnly }
    else .ok g

/-- Check 3 of R41 for a command that uses a partition: the context's validity (R73), then resolution. -/
def checkGrant (s : State) (p : Port) (c : HostCmd) (need : Right) : Except Refused Grant :=
  match s.logicalOf p c with
  | none => .error { result := .positionLost, detail := .none }
  | some l => s.resolve p l need

/-! ## Library commands in service -/

/-- Whether a library access is in flight at the tag reader. -/
def accessInFlight (s : State) : Bool :=
  match s.dtc.reader with
  | some { kind := .library _, .. } => true
  | _ => false

/-- Whether a library command is in service (R28, R31): outstanding, or, after a line reset that dropped its response, still running: its transaction in flight, its Port Cut waiting, or its Unload begun or joined (R187; log entry 38). -/
def libraryBusy (s : State) : Bool :=
  s.lp.outstanding.isSome || s.accessInFlight || s.ports.a.cut || s.ports.b.cut || s.lsq.holder == .library || s.lsq.joined

/-- Whether a Lay Out Partitions is in service (R16): waiting for the tag reader or in flight at it. -/
def layOutActive (s : State) : Bool :=
  (match s.dtc.pendLibrary with | some { access := .layOut _, .. } => true | _ => false) ||
    (match s.dtc.reader with | some { kind := .library (.layOut _), .. } => true | _ => false)

/-! ## Sessions (R52) -/

/-- A session opens at the port's context (R52), and its stale mark is asked for where it needs one (R160). -/
def openSession (s : State) (p : Port) (r : Part) (object : Nat) : State :=
  (s.setRow r
    { Row.empty with
      holder := some p, state := .streaming, firstObject := object,
      nextSegment := s.committedSegments r, marksNext := s.committedMarks r }).needStaleMark r

/-- Checks 3 to 7 of R52 for a write that would open a session at `object`; none when they pass. -/
def openRefusal (s : State) (r : Part) (c : HostCmd) (object : Nat) : Option Refused :=
  if s.writeProtected r then some { result := .writeProtected, detail := .none }
  else if (s.row r).state != .none then some { result := .sessionHeld, detail := heldDetail (s.row r).state }
  else if object != s.committedObjects r then some { result := .notAtEnd, detail := .none }
  else if s.hcm.level = .required then some { result := .headService, detail := .none }
  else if !s.admits r (s.newSlots r c) then some { result := .partitionFull, detail := .none }
  else none

/-- The checks of a write that continues its port's session (R52): the session must be open at the context's object, and the object must be admitted. -/
def continueRefusal (s : State) (r : Part) (c : HostCmd) (object : Nat) : Option Refused :=
  if !(s.row r).state.isActive then some { result := .writeFault, detail := .none }
  else if object != (s.row r).firstObject + (s.row r).admitted then some { result := .notAtEnd, detail := .none }
  else if !s.admits r (s.newSlots r c) then some { result := .partitionFull, detail := .none }
  else none

/-- A write that has passed its checks begins (R91, R103, R106). -/
def startWrite (s : State) (p : Port) (r : Part) : HostCmd → State
  | .writeRecord n => s.startRecord p r n
  | .writeMarks n _ => s.startMarks p r n
  | _ => s

/-- A Write Record or Write Marks goes on with its checks (R52): it continues its port's session on the partition, or opens one. -/
def serveWrite (s : State) (p : Port) (r : Part) (c : HostCmd) : State :=
  match s.workContext p with
  | none => s.endCommand p .positionLost .none
  | some x =>
    match s.sessionOf p with
    | some q =>
      if q = r then
        match s.continueRefusal r c x.object with
        | some e => s.endCommand p e.result e.detail
        | none => s.startWrite p r c
      else s.endCommand p .writeFault .none
    | none =>
      match s.openRefusal r c x.object with
      | some e => s.endCommand p e.result e.detail
      | none => (s.openSession p r x.object).startWrite p r c

/-! ## Truncate (R134) -/

/-- Checks 3 to 5 of a Truncate (R134); none when they pass. -/
def truncateRefusal (s : State) (r : Part) : Option Refused :=
  if s.writeProtected r then some { result := .writeProtected, detail := .none }
  else if (s.row r).state != .none then some { result := .sessionHeld, detail := heldDetail (s.row r).state }
  else if s.hcm.level = .required then some { result := .headService, detail := .none }
  else none

/-- The Truncate's slot is asked for (R111): it is command work once the slot is granted. -/
def requestCopy (s : State) (p : Port) (r : Part) : State :=
  match (if s.sbm.requests.isEmpty then slotForWriting s.sbm.slots else none) with
  | some i => (s.takeCopySlot i p r).setPhase p .tape
  | none => (s.waitSlot r p .truncate).setPhase p .awaitSlot

/-- A Truncate that cuts nothing (R134): a session opens at the committed end with its hold timer started. -/
def truncateAtEnd (s : State) (p : Port) (r : Part) : State :=
  let s := s.openSession p r (s.committedObjects r)
  let s := s.setRow r { s.row r with holdTimer := some s.sst.settings.appendHold }
  s.endCommand p .ok .none

/-- A Truncate goes on with its checks (R134), the first two of which it has met at its taking (DEDUCED, log entry 95); one whose port still holds a row, which then is Failed, ends as a write would (R51, R55). -/
def serveTruncate (s : State) (p : Port) (r : Part) : State :=
  match s.workContext p with
  | none => s.endCommand p .positionLost .none
  | some x =>
    match s.truncateRefusal r with
    | some e => s.endCommand p e.result e.detail
    | none =>
      if (s.sessionOf p).isSome then s.endCommand p .writeFault .none
      else if s.committedObjects r ≤ x.object then s.truncateAtEnd p r else s.requestCopy p r

/-! ## Reads (R141, R153) -/

/-- A context at or beyond the committed end is set to it (R141); one that a Grant has made Lost stays so (R148). -/
def contextAtEnd (s : State) (p : Port) (r : Part) : State :=
  match s.context p with
  | none => s
  | some x => s.setContext p (some { x with object := s.committedObjects r, marks := s.committedMarks r, atEnd := true })

/-- A Read Record goes on (R141, R142): END_OF_DATA at the end, a hit put together, or command work. -/
def serveRead (s : State) (p : Port) (r : Part) (limit : Nat) : State :=
  match s.workContext p with
  | none => s.endCommand p .positionLost .none
  | some x =>
    if s.committedObjects r ≤ x.object then (s.contextAtEnd p r).endCommand p .endOfData .none
    else
      let y := s.lookupRecord p r x.object
      let read : ReadState :=
        { object := x.object, part := r, limit := limit, phase := .awaitingTurn, first := y.2.1.head?.map (·.1), held := y.2.1, lastRead := none, fallen := false }
      let s := (y.1.setRead p (some read)).setPhase p .reading
      if y.2.2 then s.reassemble p read else s

/-- A Verify Scan goes on (R153): OK at the end, or command work from the context's object. -/
def serveScan (s : State) (p : Port) (r : Part) : State :=
  match s.workContext p with
  | none => s.endCommand p .positionLost .none
  | some x =>
    if s.committedObjects r ≤ x.object then
      (s.contextAtEnd p r).endCommand p .ok (.scan 0 (s.committedObjects r) none)
    else
      (s.setScan p (some
        { part := r, start := x.object, objects := s.committedObjects r, segments := s.committedSegments r, marks := s.committedMarks r, granted := false,
          checkedPoint := x.object, checkedMarks := x.marks, segmentsChecked := 0, pending := false, next := 0, expectObject := none,
          expectMarks := 0, found := [], partial_ := none, fragments := 0, held := [], ended := none, already := [] })).setPhase p .reading

/-- A positioning command that uses the context goes on to its turn; without one to work from it ends POSITION_LOST (R73). -/
def serveMove (s : State) (p : Port) : State :=
  match s.workContext p with
  | none => s.endCommand p .positionLost .none
  | some _ => s.setPhase p .tape

/-- A command that uses a partition goes on with the rest of its checks and its work, its own session no longer closing (R41 check 4, R55). -/
def proceedCommand (s : State) (p : Port) (r : Part) (c : HostCmd) : State :=
  match c with
  | .writeRecord _ => s.serveWrite p r c
  | .writeMarks .. => s.serveWrite p r c
  | .readRecord limit => s.serveRead p r limit
  | .verifyScan => s.serveScan p r
  | .locate .. => s.setPhase p .tape
  | .spaceObjects _ n => if n = 0 then s.endCommand p .ok .none else s.serveMove p
  | .spaceMarks _ n => if n = 0 then s.endCommand p .ok .none else s.serveMove p
  | .seekEnd => s.serveMove p
  | .rewind _ => s.setPhase p .tape
  | .truncate => s.serveTruncate p r
  | _ => s

/-- Whether a row is to close as soon as a record whose command is gone has been placed (R109): it admits no further object. -/
def closesAfterPlacing (s : State) (q : Part) : Bool := (s.row q).closeDue == .afterPlacing

/-- Whether a command of a port that holds the row `q` closes that session, or waits for its closing (R55). A Space with count 0 closes it too (DESIGN CHOICE, log entry 61), and a write waits as well while the closing itself waits for a placement (DEDUCED, log entry 68). -/
def mustClose (s : State) (q r : Part) (c : HostCmd) : Bool :=
  (s.row q).state.isOpen && (closesSession c || (isWrite c && (q != r || (s.row q).state == .closing || s.closesAfterPlacing q)))

/-- The resolved partition and right kept by the command in service, with the context it was taken with (R48). -/
def keepGrant (s : State) (p : Port) (g : Grant) : State :=
  match (s.port p).inService with
  | none => s
  | some c => s.setPort p { s.port p with inService := some { c with part := some g.part, right := some g.right, start := s.context p } }

/-- A command that uses a partition after its resolution (R55): its own session closes first, where it must, and before a Space with count 0 ends (R79, R80; DESIGN CHOICE, log entry 61). -/
def serveOn (s : State) (p : Port) (g : Grant) (c : HostCmd) : State :=
  let s := s.keepGrant p g
  match s.sessionOf p with
  | none => s.proceedCommand p g.part c
  | some q =>
    if s.mustClose q g.part c then
      let s := (s.setPhase p (.waitClose q)).requestClose q false
      if s.holds p q then s else s.proceedCommand p g.part c
    else s.proceedCommand p g.part c

/-! ## Commands that use no partition -/

/-- A Sync (R132). -/
def serveSync (s : State) (p : Port) : State :=
  match s.sessionOf p with
  | none => s.endCommand p .ok .none
  | some r =>
    if (s.row r).state.isOpen then
      let s := s.closeSlot r
      if (s.row r).unverified = 0 then s.endCommand p .ok .none else s.setPhase p (.awaitSync r)
    else s.endCommand p .writeFault .none

/-- The options set by Set Port Options (R190): read-ahead turned off releases the port's CACHED slots, the pinned ones when their pins are gone (R114); so does an option carried off that was off already, and a fill posted or running then goes on (both DESIGN CHOICE, log entry 63). -/
def serveOptions (s : State) (p : Port) (x : Options) : State :=
  let s := s.setPort p { s.port p with options := x }
  let s := if x.readAhead then s else s.mapSlots (fun y => y.readAheadOff p)
  s.endCommand p .ok (.options x)

/-- Whether a fill of any port is posted or running. -/
def fillInProgress (s : State) : Bool := s.rdu.fills.a != .none || s.rdu.fills.b != .none

/-- Whether Park is declined (R28). -/
def parkDeclined (s : State) (p : Port) : Bool :=
  !s.ports.a.waiting.isEmpty || !s.ports.b.waiting.isEmpty || (s.port (otherPort p)).inService.isSome
    || !s.ports.a.attention.isEmpty || !s.ports.b.attention.isEmpty
    || allParts.any (fun r => 0 < (s.row r).unverified) || s.fillInProgress || s.libraryBusy

/-- The turn in progress ends for a Park (R28): a drain turn that waits after a backhitch, or what a stopped command has left of its turn (DEDUCED, log entry 37). -/
def dropTurn (s : State) : State :=
  ((((s.freeCopySlot.setAcc none).haltTransport).idleRead .a).idleRead .b).endTurn

/-- Park (R28). -/
def servePark (s : State) (p : Port) : State :=
  if s.lsq.state != .ready then s.endCommand p .ok .none
  else if s.parkDeclined p then s.endCommand p .parkDeclined .none
  else
    let s := (s.setWvu { s.wvu with backhitch := none }).dropTurn
    ((s.requestCheckpoint false).enterStandby).endCommand p .ok .none

/-- Whether an Unload Request is refused BUSY_OTHER (R31). -/
def otherBusy (s : State) (p : Port) : Bool :=
  let q := otherPort p
  (s.sessionOf q).isSome || !(s.port q).waiting.isEmpty || (s.port q).inService.isSome || s.libraryBusy

/-- The unload holder set, where none is set (R20, R31). -/
def setHolder (s : State) (x : Holder) : State :=
  if s.lsq.holder = .nobody then s.setLsq { s.lsq with holder := x } else s

/-- An unload begins from Ready or Standby, or is noted in Waking (R30, R31). -/
def beginUnload (s : State) : State :=
  match s.lsq.state with
  | .ready => s.enterDraining
  | .standby => s.enterWaking
  | _ => s

/-- An Unload Request (R31): the unload holder becomes the port. -/
def serveUnload (s : State) (p : Port) : State :=
  if s.otherBusy p then s.endCommand p .busyOther .none
  else ((s.setPhase p .unloading).setLsq { (s.setPhase p .unloading).lsq with holder := .port p }).beginUnload

/-! ## Taking into service (R41) -/

/-- Checks 3 and 4 of R41, after load state and attention. A command that uses a partition meets the context's validity and its resolution here, at its taking and before its own session closes (R55, R73), a Truncate too, though R134 lists them after the holder's wait: one refused here leaves its session open (DEDUCED, log entry 95). -/
def serveCommand (s : State) (p : Port) (c : HostCmd) : State :=
  match rightNeeded c with
  | some need =>
    (match s.checkGrant p c need with
    | .error e => s.endCommand p e.result e.detail
    | .ok g => s.serveOn p g c)
  | none =>
    match c with
    | .sync => s.serveSync p
    | .park => s.servePark p
    | .unloadRequest => s.serveUnload p
    | .setPortOptions x => s.serveOptions p x
    | _ => s

/-- A Failed row named by the reported deferred fault returns to None (R46, R56). -/
def reportFault (s : State) (p : Port) (x : Attention) : State :=
  match x.deferred with
  | none => s
  | some f => if (s.row f.part).state = .failed && s.holds p f.part then s.rowToNone f.part else s

/-- A command is refused ATTENTION (R46): the set is reported and emptied. -/
def reportAttention (s : State) (p : Port) : State :=
  let x := (s.port p).attention
  let s := (s.setPort p { s.port p with attention := Attention.empty }).reportFault p x
  s.endCommand p .attention (.attention x)

/-- The holder's write or Sync is in service: its row is Streaming, and for a write its hold timer stops (R53). -/
def holdForWrite (s : State) (p : Port) (c : HostCmd) : State :=
  match s.sessionOf p with
  | none => s
  | some r =>
    if (s.row r).state.isActive then
      if isWrite c then (s.setRow r { s.row r with holdTimer := none }).refreshRow r
      else if c = .sync then s.refreshRow r
      else s
    else s

/-- A command enters the in-service place and meets its checks in order (R41). -/
def takeCommand (s : State) (p : Port) (q : Queued) : State :=
  let s := s.setPort p { s.port p with inService := some (taken (s.port p).options q) }
  let s := s.holdForWrite p q.cmd
  match loadCheck s.lsq.state with
  | some e => s.endCommand p e .none
  | none => if (s.port p).attention.isEmpty then s.serveCommand p q.cmd else s.reportAttention p

/-- The oldest waiting command is taken into service when the place is empty and no Lay Out Partitions is in service (R16, R41). -/
def takeOldest (s : State) (p : Port) : State :=
  if (s.port p).inService.isNone && !s.layOutActive then
    match (s.port p).waiting with
    | [] => s
    | q :: rest => (s.setPort p { s.port p with waiting := rest }).takeCommand p q
  else s

/-- A wait of R55 ends: the session's row has left Closing, and the command proceeds, or ends WRITE_FAULT where it failed. -/
def endClosingWait (s : State) (p : Port) : State :=
  match (s.port p).inService with
  | none => s
  | some c =>
    match c.phase with
    | .waitFailed => s.endCommand p .writeFault .none
    | .waitClose q =>
      if s.holds p q then s
      else
        match c.part with
        | none => s
        | some r => s.proceedCommand p r c.cmd
    | _ => s

/-! ## Arrivals (R39) -/

/-- Whether a tag is in use at a port (R39 check 2). -/
def tagInUse (s : State) (p : Port) (tag : Nat) : Bool :=
  (s.port p).waiting.any (fun q => q.tag == tag) ||
    (match (s.port p).inService with | none => false | some c => c.tag == tag)

/-- The EW flag of a refusal at arrival: a Sync's alone has a partition then (R120; for the writes and Truncate DESIGN CHOICE, log entry 79). -/
def arrivalEw (s : State) (p : Port) (code : Nat) : Bool :=
  if code = cmdCode .sync then (match s.sessionOf p with | some r => s.ew r | none => s.contextEw p) else false

/-- A refusal at arrival (R39): the response, and the outcome record (R44). -/
def refuseArrival (s : State) (p : Port) (code tag : Nat) (result : HostResult) : State :=
  (s.sendHost p (.response tag result (s.arrivalEw p code) (s.context p) .none)).writeOutcome p code tag result .none

/-- A command that arrives during a Port Cut (R59): answered, without an outcome record. -/
def abortArrival (s : State) (p : Port) (code tag : Nat) : State :=
  s.sendHost p (.response tag .abortedByCut (s.arrivalEw p code) (s.context p) .none)

/-- A command appended at the tail, and taken into service at once when the port has nothing else (R39 check 5, R16). -/
def enqueue (s : State) (p : Port) (q : Queued) : State :=
  if (s.port p).inService.isNone && (s.port p).waiting.isEmpty && !s.layOutActive then s.takeCommand p q
  else s.setPort p { s.port p with waiting := (s.port p).waiting ++ [q] }

/-- The arrival of a non-query command frame (R39); none stands for a parameter outside its range. While the reset line is asserted the frame is discarded (R194). -/
def arriveCommand (s : State) (p : Port) (code tag : Nat) (c : Option HostCmd) : State :=
  if s.resetLine then s
  else
    match c with
    | none => s.refuseArrival p code tag .formatFault
    | some c =>
      if s.tagInUse p tag then s.refuseArrival p code tag .tagInUse
      else if (s.port p).cut then s.abortArrival p code tag
      else if 4 ≤ (s.port p).waiting.length then s.refuseArrival p code tag .queueFull
      else s.enqueue p { tag := tag, cmd := c }

/-! ## Stops (R58, R60, R83) -/

/-- The turn in progress marked so that it ends when the transport stops (R83). -/
def markStopping (s : State) : State :=
  s.setMsc { s.msc with turn := s.msc.turn.map (fun t => { t with stopping := true }) }

/-- Whether the turn in progress must run on to the end of a relocation, of the segment being read, or of another row's leaving procedure. A header scan whose look-ahead is past its segment's end does not (R83). -/
def mustRunOn (s : State) : Bool :=
  (match s.msc.turn with | some t => t.leaving.isSome | none => false) ||
    (match s.msc.activity with
    | .relocating .. => true
    | .reading => true
    | .lookingAhead => (s.rdu.acc.map (fun a => !a.forScan)).getD false
    | _ => false)

/-- A port's turn in progress is stopped: at once, or at the end of what it has under way (R58, R70, R83). -/
def stopTurn (s : State) (p : Port) : State :=
  match s.msc.turn with
  | none => s
  | some t =>
    if jobPort t.job = some p && !(match t.job with | .drain .. => true | _ => false) then
      if s.mustRunOn then s.markStopping
      else ((if s.msc.activity = .scanning then s.haltScan else s.haltTransport).setAcc none).endStopped
    else s

/-- The copy under recovery is given up, at a port reset, when it belongs to the port's work (R60, R140): reading stops before the segment's end (R112), but for a header scan's, which stops at that end (R83); a relocation under way ends at its arrival (R70). -/
def dropCopyOf (s : State) (p : Port) : State :=
  match s.msc.turn, s.rdu.acc with
  | some t, some a =>
    if jobPort t.job = some p then
      let s := s.freeCopySlot.setAcc none
      match s.msc.activity with
      | .reading => if a.forScan then s else s.setActivity .seeking
      | .lookingAhead => s.setActivity .seeking
      | _ => s
    else s
  | _, _ => s

/-- A copy to which a relocation takes the head back is given up at a Port Cut, since the turn ends at that relocation's arrival (R70, R146; DEDUCED, log entry 15). -/
def dropMovingCopy (s : State) (p : Port) : State :=
  match s.msc.activity with
  | .relocating .. => s.dropCopyOf p
  | _ => s

/-- Whether a Verify Scan's copy is being read, so that a Port Cut waits for it (R58, R154). -/
def scanReads (s : State) (p : Port) : Bool :=
  (match s.job with | some (.verify q) => q == p | _ => false) && s.rdu.acc.isSome && s.mustRunOn

/-- A read in service is stopped (R58): delivery stops and its pins are dropped; its state is idle, at once or, where its own turn reads a segment, when that has been read to its end (R140). -/
def stopRead (s : State) (p : Port) : State :=
  let s := if s.job = some (.read p) && s.rdu.acc.isSome && !s.stopping then s else s.setRead p none
  (s.dropExpansions p).dropPins p

/-- A Truncate in service is stopped: its slot is freed, and a segment being read for it is read to its end without one (R134, R140). -/
def stopTruncate (s : State) (p : Port) : State :=
  let s := (s.withdrawRequests p .truncate).dropCopy p
  match s.rdu.acc with
  | some a => if s.job = some (.truncate p) then s.setAcc (some { a with slot := none }) else s
  | none => s

/-- The command in service is stopped without finishing it (R58); a Verify Scan's reading is stopped by its own rule. -/
def stopService (s : State) (p : Port) : State :=
  match (s.port p).inService with
  | none => s
  | some c =>
    match c.phase with
    | .awaitSlot =>
      (match c.cmd with
      | .truncate => s.stopTruncate p
      | _ => (s.withdrawRequests p .credit).dropRecord p)
    | .receiving => s.dropRecord p
    | .compressing => s.dropRecord p
    | .placingMarks _ => s.withdrawRequests p .mark
    | .tape =>
      (match c.cmd with
      | .truncate => (s.stopTruncate p).stopTurn p
      | _ => s.stopTurn p)
    | .reading =>
      (match c.cmd with
      | .verifyScan => (s.dropScan p).stopTurn p
      | _ => (s.stopRead p).stopTurn p)
    | _ => s

/-- A fill of the port is stopped (R83): a posted one is withdrawn, a running one ends with its segment. -/
def stopFillOf (s : State) (p : Port) : State :=
  match s.rdu.fills.get p with
  | .posted .. => (s.setFill p .none).stopTurn p
  | .running .. => if s.mustRunOn then s.markStopping else s.haltTransport.stopFill p
  | .none => s

/-- The port's session is closed, or its Failed row returned to None with the fault left in the attention set (R59, R60). The command in service is gone by then, so that a row whose closing waits for a placement (R109) is judged between Streaming and Held without it (R53). -/
def closeOf (s : State) (p : Port) : State :=
  match s.sessionOf p with
  | none => s
  | some r => if (s.row r).state = .failed then s.rowToNone r else (s.refreshRow r).requestClose r false

/-- A command answered ABORTED_BY_CUT (R58). -/
def answerCut (p : Port) (s : State) (q : Queued) : State :=
  s.sendHost p (.response q.tag .abortedByCut (s.arrivalEw p (cmdCode q.cmd)) (s.context p) .none)

/-- The command in service answered ABORTED_BY_CUT, with the EW flag its response carries (R58, R120). -/
def answerServed (s : State) (p : Port) : State :=
  match (s.port p).inService with
  | none => s
  | some c =>
    let s := s.sendHost p (.response c.tag .abortedByCut (s.responseEw p c) (s.context p) .none)
    s.setPort p { s.port p with inService := none, credit := none }

/-- The end of a Port Cut (R58, R59): the commands of the port are answered, its session is closed, and the library receives CUT_DONE. -/
def finishCut (s : State) (p : Port) : State :=
  let s := s.answerServed p
  let s := (s.port p).waiting.foldl (answerCut p) s
  let s := s.setPort p { s.port p with waiting := [], cut := false, credit := none }
  (s.closeOf p).endLibrary (.portCut p) .cutDone .none

/-- A Port Cut taken (R58): the command in service and any fill are stopped, and the port is answered, at once or when the segment a Verify Scan is reading has been read to its end; the scan's expansions are removed at once (R98). -/
def cutPort (s : State) (p : Port) : State :=
  let s := s.dropMovingCopy p
  if s.scanReads p then
    let s := (s.dropExpansions p).markStopping
    s.setPort p { s.port p with cut := true }
  else ((s.stopService p).stopFillOf p).finishCut p

/-- A Port Cut that waited for a segment is finished once its scan's turn has ended (R58). -/
def finishCutOf (s : State) (p : Port) : State :=
  if (s.port p).cut && !(match s.job with | some (.verify q) => q == p | _ => false) then s.finishCut p else s

/-- A port reset (R60). A turn that an earlier Port Cut has stopped, and that still reads, is stopped with it. -/
def resetPort (s : State) (p : Port) : State :=
  let s := s.dropCopyOf p
  let s := (s.stopService p).stopFillOf p
  let s := if s.stopping then s.stopTurn p else s
  let s := (s.setFill p .none).setRead p none
  let s := s.setPort p
    { s.port p with rx := [], tx := [], credit := none, inService := none, waiting := [], options := Options.default, cut := false }
  let s := (s.closeOf p).freeReadSlots p
  s.endLibrary (.portCut p) .cutDone .none

/-! ## After each step -/

/-- What a step brings about as soon as it is taken: a waiting Port Cut finishes, a Verify Scan notes its abandonment, a waiting drain turn yields, and eligible work wakes a part in Standby. -/
def settle (s : State) : State := ((((s.finishCutOf .a).finishCutOf .b).noteAbandonment).yieldWaiting).wakeForWork

end State

end Sys2Proof.Machine
end

