-- ==== Sys2Proof/Machine/Reports.lean ====
section
/-! DEFINITION. The answers to Query Drive, group by group, as the part stands when the query is taken (R191). -/

namespace Sys2Proof.Machine

/-- The kind of a job's turn, as reported (R61, R62). -/
def turnKind : Job → TurnKind
  | .position .. => .command
  | .read _ => .command
  | .verify _ => .command
  | .truncate _ => .command
  | .drain .. => .drain
  | .fill _ => .fill
  | .library _ => .library

/-- The form of an intake, as reported (R85). -/
def intakeForm : Intake → IntakeForm
  | .empty => .empty
  | .receiving .. => .receiving
  | .waiting _ => .waiting
  | .packing _ => .packing
  | .packed .. => .packed

/-- What of a session row is reported (R51). -/
def rowReport (x : Row) : RowReport :=
  { holder := x.holder, state := x.state, firstObject := x.firstObject, admitted := x.admitted, unverified := x.unverified }

namespace State

/-- The Drive group (R191). Without a copy no type is reported but a cleaning cartridge's, and no Current flag (R1, R156; DESIGN CHOICE, log entry 57). -/
def reportDrive (s : State) : DriveReport :=
  { state := s.lsq.state
    kind := s.lsq.kind
    type := if s.lsq.kind = .cleaning then some .cleaning else s.dtc.copy.map (·.type)
    writeTab := s.cart.writeTab
    lane := s.msc.head.lane
    position := positionOf s.msc.head.coord
    motion := s.msc.motion
    turn := s.msc.turn.map (fun t => (turnKind t.job, jobPort t.job))
    level := s.wvu.rate.level
    window := s.wvu.window.length
    rewritesDue := s.wvu.rewrites.countP (·.due)
    current := s.dtc.copy.map (·.current)
    atRisk := s.dtc.atRisk
    checkpointPending := s.dtc.pendCheckpoint.isSome
    checkpointInFlight := s.checkpointInFlight
    recovering := s.dtc.recovery.isSome }

/-- One partition of the Partitions group; none outside the layout (R191). -/
def reportPart (s : State) (r : Part) : Option PartReport :=
  (s.partDir r).map (fun d =>
    { segments := d.segments, objects := d.objects, marks := d.marks, used := d.used, locked := d.locked,
      remaining := s.remaining r, ew := s.ew r, row := rowReport (s.row r) })

/-- The Port group; the outcome record is the library's alone (R191). -/
def reportPort (s : State) (p : Port) (library : Bool) : PortReport :=
  let x := s.port p
  { inService := x.inService.isSome
    waiting := x.waiting.length
    options := x.options
    intake := intakeForm (s.rcx.intake.get p)
    read := (s.rdu.reads.get p).map (·.phase)
    fill := s.rdu.fills.get p
    context := s.context p
    attention := x.attention
    readSlots := readSideCount s.sbm.slots p
    outcome := if library then some x.outcome else none }

/-- The Buffer group (R191). -/
def reportBuffer (s : State) : BufferReport :=
  let row := fun (r : Part) => countSlots s.sbm.slots (fun x => x.writeSide && x.owner == .row r)
  { slots := countSlots s.sbm.slots (fun _ => true)
    rows := { p0 := row 0, p1 := row 1, p2 := row 2, p3 := row 3 } }

/-- The Head group (R191). -/
def reportHead (s : State) : HeadReport :=
  { meter := s.hcm.meter
    level := s.hcm.level
    reason := s.hcm.reason
    cleaningInterval := s.sst.settings.cleaningInterval
    qualityThreshold := s.sst.settings.qualityThreshold
    history := s.hcm.history.map (fun r => (r, qualityRatio r))
    openRecord := s.hcm.openRecord
    verified := s.hcm.verified
    extraAttempts := s.hcm.extraAttempts
    rewrites := s.hcm.rewrites
    run := s.hcm.run }

/-- The report of a group, 1 Drive to 7 Library, for a port; none for a number that names no group (R191). -/
def report (s : State) (group : Nat) (p : Port) (library : Bool) : Option Report :=
  match group with
  | 1 => some (.drive s.reportDrive)
  | 2 => some (.partitions (allParts.filterMap s.reportPart))
  | 3 => some (.port (s.reportPort p library))
  | 4 => some (.buffer s.reportBuffer)
  | 5 => some (.head s.reportHead)
  | 6 => some (.settings s.sst.settings)
  | 7 => if library then some (.library s.lp.summary s.sst.causes) else none
  | _ => none

end State

end Sys2Proof.Machine
end

