-- ==== Sys2Proof/Machine/Delivery.lean ====
section
/-! DEFINITION. The engines' work between steps (R91, R94 to R98): the arrival of record bytes, the packing engine, and the expansion engine paced by the port's sending (R96, R148). -/

namespace Sys2Proof.Machine

/-- The most record bytes a data frame carries (R148, R184). -/
def frameBytes : Nat := 8192

/-- Whether a frame is a data frame. -/
def isData : HostFrame → Bool
  | .data .. => true
  | _ => false

/-- The record bytes an intake has received (R91). -/
def receivedBytes : Intake → List Byte
  | .receiving _ b => b
  | _ => []

namespace State

/-! ## Receiving (R91, R183) -/

/-- A record is complete (R90, R91): it joins the packing engine's queue, or, with compression off, it is packed as it stands and handed over. -/
def recordComplete (s : State) (p : Port) (c : InService) (b : List Byte) : State :=
  if c.compress then
    let s := s.setIntake p (.waiting b)
    (s.setRcx { s.rcx with packQueue := s.rcx.packQueue ++ [p] }).setPhase p .compressing
  else ((s.setIntake p (.packed b.length .stored b)).setPhase p .compressing).handOver p

/-- A record that comes too long or too short ends its command FORMAT_FAULT (R91). -/
def recordBroken (s : State) (p : Port) : State := (s.dropRecord p).endCommand p .formatFault .none

/-- The bytes of a data frame join the intake of a Write Record of declared length `n` (R91). -/
def appendData (s : State) (p : Port) (c : InService) (n : Nat) (final : Bool) (bytes : List Byte) : State :=
  let b := receivedBytes (s.rcx.intake.get p) ++ bytes
  if n < b.length then s.recordBroken p
  else if final then (if b.length < n then s.recordBroken p else s.recordComplete p c b)
  else s.setIntake p (.receiving n b)

/-- A data frame (R183): taken for the Write Record of its tag that has been given credit and is still receiving, discarded otherwise. -/
def takeData (s : State) (p : Port) (tag : Nat) (final : Bool) (bytes : List Byte) : State :=
  match (s.port p).inService with
  | none => s
  | some c =>
    match c.cmd with
    | .writeRecord n =>
      if c.tag = tag && c.phase = .receiving && (s.port p).credit.isSome then s.appendData p c n final bytes else s
    | _ => s

/-! ## The packing engine (R85, R91, R92) -/

/-- The engine takes the next queued record (R91). -/
def takeRecord (s : State) : State :=
  match s.rcx.packer, s.rcx.packQueue with
  | none, p :: rest =>
    (match s.rcx.intake.get p with
    | .waiting b =>
      s.setRcx { s.rcx with packer := some { port := p, history := [], tokens := [], bits := 0 }, packQueue := rest, intake := s.rcx.intake.set p (.packing b) }
    | _ => s.setRcx { s.rcx with packQueue := rest })
  | _, _ => s

/-- The engine completes its record: the stored form is judged, the engine is free, and the record is handed over (R88, R92). -/
def completeRecord (s : State) : State :=
  match s.rcx.packer with
  | none => s
  | some k =>
    match s.rcx.intake.get k.port with
    | .packing b =>
      let f := storedForm b
      let s := s.setRcx { s.rcx with packer := none, intake := s.rcx.intake.set k.port (.packed b.length f.1 f.2) }
      s.handOver k.port
    | _ => s.setRcx { s.rcx with packer := none }

/-! ## The expansion engine (R94 to R97) -/

/-- The tag of the command in service at a port. -/
def serviceTag (s : State) (p : Port) : Nat := ((s.port p).inService.map (·.tag)).getD 0

/-- Whether the port still holds a data frame it has not sent, for which the engine waits (R96), one of an earlier request too (DESIGN CHOICE, log entry 82). -/
def unsentData (s : State) (p : Port) : Bool := (s.port p).tx.any isData

/-- The engine's production goes on until a frame is full, the record is produced or a fault is met (R96): a full frame enters the port's queue (R184). -/
def produce (s : State) : State :=
  match s.rcx.expander with
  | none => s
  | some e =>
    if s.unsentData e.req.port then s
    else
      let e := Expander.walk e.fuel e
      if e.frameFull then
        let s := s.sendHost e.req.port (.data (s.serviceTag e.req.port) false (e.held.take frameBytes))
        s.setRcx { s.rcx with expander := some { e with framed := e.framed + frameBytes, held := e.held.drop frameBytes } }
      else s.setRcx { s.rcx with expander := some e }

/-- The engine has nothing in hand. -/
def idleExpander (s : State) : State := s.setRcx { s.rcx with expander := none }

/-- Whether a slot holds a fragment of a read's record. -/
def holdsFragment (x : ReadState) (i : Nat) : Bool := x.held.any (fun y => y.2 == i)

/-- The slots of a record that could not be decoded are released whatever the read-ahead option (R149); one that the other port's read pins is freed when that pin drops. -/
def releaseFragments (s : State) (p : Port) (x : ReadState) : State :=
  let s := s.dropPins p
  s.setSbm { s.sbm with slots := s.sbm.slots.mapIdx (fun i y =>
    if holdsFragment x i && y.state == .cached then (if y.pinned then { y with invalidated := true } else Slot.free) else y) }

/-- A transport that moves for a scan which an expansion's fault ends stops at once, where the free value leaves it, also in a relocation (R154; DESIGN CHOICE, log entry 83); a turn that a Port Cut has stopped runs to its own end. -/
def haltOwn (s : State) (x : Job) : State := if s.job = some x && !s.stopping then s.haltTransport else s

/-- The end of a port's request with DECODE_FAULT, `n` bytes produced before the token at fault (R97, R149, R154). -/
def decodeEnds (s : State) (q : ExpRequest) (n : Nat) : State :=
  if q.scan then
    match s.rdu.scans.get q.port with
    | none => s
    | some x => (s.haltOwn (.verify q.port)).endScan q.port x .decodeFault none
  else
    match s.rdu.reads.get q.port with
    | none => s
    | some x => (s.releaseFragments q.port x).endRead q.port .decodeFault (.produced n)

/-- The engine takes the next request and checks its description (R95). -/
def takeRequest (s : State) : State :=
  match s.rcx.expander, s.rcx.expQueue with
  | none, q :: rest =>
    let s := s.setRcx { s.rcx with expQueue := rest }
    if descriptionOk q.scheme q.raw q.stored then
      (s.setRcx { s.rcx with expander := some { req := q, produced := 0, history := [], place := 0, framed := 0, held := [] } }).produce
    else s.decodeEnds q 0
  | _, _ => s

/-- A read's record is expanded (R148): its last frame and its response are sent, and the context advances. -/
def readExpanded (s : State) (e : Expander) : State :=
  let p := e.req.port
  match s.rdu.reads.get p with
  | none => s
  | some x =>
    let s := if e.req.limit = 0 then s else s.sendHost p (.data (s.serviceTag p) true e.held)
    let s := (s.countStored (.reading p) e.req.stored).advanceReader p x 0
    s.endRead p (if x.limit < e.req.raw then .longRecord else .ok) (.rawLength e.req.raw)

/-- A scan's record is expanded (R153): it is checked, the checked point passes on, and slots no longer needed are released. -/
def scanExpanded (s : State) (e : Expander) : State :=
  let p := e.req.port
  match s.rdu.scans.get p with
  | none => s
  | some x =>
    let x := { x with found := x.found.map (fun o => if o.object = e.req.object then { o with checked := true } else o) }
    let s := s.releaseScanned p (passChecked x.found.length x)
    s.scanSettled p

/-- The request in the engine ends "record expanded" (R96). -/
def expanded (s : State) : State :=
  match s.rcx.expander with
  | none => s
  | some e =>
    if e.complete then (if e.req.scan then s.idleExpander.scanExpanded e else s.idleExpander.readExpanded e) else s

/-- The bytes passed to the port that fill no frame yet, sent at a fault without the final flag (R97, R184); a frame with the last byte to be delivered is the one that R148 holds until "record expanded", and is never sent (DEDUCED, log entry 22). -/
def sendPassed (s : State) (e : Expander) : State :=
  if e.unsentPassed then s.sendHost e.req.port (.data (s.serviceTag e.req.port) false e.held) else s

/-- The request in the engine ends DECODE_FAULT (R97), also while the engine waits for the port's sending (R96; DESIGN CHOICE, log entry 78): the bytes passed to the port before the fault are sent. -/
def decodeFaults (s : State) : State :=
  match s.rcx.expander with
  | none => s
  | some e => if e.atFault then (s.idleExpander.sendPassed e).decodeEnds e.req e.produced else s

end State

end Sys2Proof.Machine
end

