-- ==== Sys2Proof/Machine/HostCommands.lean ====
section
/-! DEFINITION. The frames of the host links: the fourteen non-query commands (R39, R41), the two queries (R40), data frames (R91, R183), damaged frames (R182), the end of a frame's sending (R184) and the link reset (R60). While the reset line is asserted every arriving frame is discarded (R194). -/

namespace Sys2Proof.Machine

namespace State

/-! ## Queries (R39, R40) -/

/-- A query refused at arrival: answered, without an outcome record (R44). A query's response carries no position (spec/11 11.6). -/
def refuseQuery (s : State) (p : Port) (tag : Nat) (result : HostResult) : State :=
  s.sendHost p (.response tag result false none .none)

/-- A query whose format is good is answered at arrival, unless its tag is in use (R39 check 2, R40). -/
def answerQuery (s : State) (p : Port) (tag : Nat) (answer : HostFrame) : State :=
  if s.tagInUse p tag then s.refuseQuery p tag .tagInUse else s.sendHost p answer

/-- Query Drive at a host port (R191): a group outside 1 to 6 is refused FORMAT_FAULT, Library among them; the Port group is the port's own. -/
def hostQuery (s : State) (p : Port) (tag group : Nat) : State :=
  if inRange 1 6 group then
    match s.report group p false with
    | none => s.refuseQuery p tag .formatFault
    | some r => s.answerQuery p tag (.report tag r)
  else s.refuseQuery p tag .formatFault

/-! ## Sending and receiving (R182, R184) -/

/-- The frame the port was building is discarded (R182). -/
def dropReceived (s : State) (p : Port) : State := s.setPort p { s.port p with rx := [] }

/-- The frame at the head of the port's transmit queue has been sent (R184). -/
def frameSent (s : State) (p : Port) : State := s.setPort p { s.port p with tx := (s.port p).tx.drop 1 }

end State

/-- WRITE_RECORD (R39, R52, R91, R119, R131). -/
def execWriteRecord (p : Port) (tag rawLength : Nat) (s : State) : Host.Outcome State Fault Refusal :=
  .next (s.arriveCommand p 1 tag (parseWriteRecord rawLength)).settle

/-- WRITE_MARKS (R39, R133). -/
def execWriteMarks (p : Port) (tag count sync : Nat) (s : State) : Host.Outcome State Fault Refusal :=
  .next (s.arriveCommand p 2 tag (parseWriteMarks count sync)).settle

/-- READ_RECORD (R39, R141). -/
def execReadRecord (p : Port) (tag limit : Nat) (s : State) : Host.Outcome State Fault Refusal :=
  .next (s.arriveCommand p 3 tag (parseReadRecord limit)).settle

/-- VERIFY_SCAN (R39, R153). -/
def execVerifyScan (p : Port) (tag : Nat) (s : State) : Host.Outcome State Fault Refusal :=
  .next (s.arriveCommand p 4 tag (some .verifyScan)).settle

/-- LOCATE (R39, R78). -/
def execLocate (p : Port) (tag logical object : Nat) (s : State) : Host.Outcome State Fault Refusal :=
  .next (s.arriveCommand p 5 tag (parseLocate logical object)).settle

/-- SPACE_OBJECTS (R39, R79). -/
def execSpaceObjects (p : Port) (tag direction count : Nat) (s : State) : Host.Outcome State Fault Refusal :=
  .next (s.arriveCommand p 6 tag (parseSpace false direction count)).settle

/-- SPACE_MARKS (R39, R80). -/
def execSpaceMarks (p : Port) (tag direction count : Nat) (s : State) : Host.Outcome State Fault Refusal :=
  .next (s.arriveCommand p 7 tag (parseSpace true direction count)).settle

/-- SEEK_END (R39, R81). -/
def execSeekEnd (p : Port) (tag : Nat) (s : State) : Host.Outcome State Fault Refusal :=
  .next (s.arriveCommand p 8 tag (some .seekEnd)).settle

/-- REWIND (R39, R82). -/
def execRewind (p : Port) (tag : Nat) (logical : Option Nat) (s : State) : Host.Outcome State Fault Refusal :=
  .next (s.arriveCommand p 9 tag (parseRewind logical)).settle

/-- TRUNCATE (R39, R134). -/
def execTruncate (p : Port) (tag : Nat) (s : State) : Host.Outcome State Fault Refusal :=
  .next (s.arriveCommand p 10 tag (some .truncate)).settle

/-- SYNC (R39, R132). -/
def execSync (p : Port) (tag : Nat) (s : State) : Host.Outcome State Fault Refusal :=
  .next (s.arriveCommand p 11 tag (some .sync)).settle

/-- PARK (R39, R28). -/
def execPark (p : Port) (tag : Nat) (s : State) : Host.Outcome State Fault Refusal :=
  .next (s.arriveCommand p 12 tag (some .park)).settle

/-- UNLOAD_REQUEST (R39, R31). -/
def execUnloadRequest (p : Port) (tag : Nat) (s : State) : Host.Outcome State Fault Refusal :=
  .next (s.arriveCommand p 13 tag (some .unloadRequest)).settle

/-- SET_PORT_OPTIONS (R39, R190). -/
def execSetPortOptions (p : Port) (tag compression mode readAhead : Nat) (s : State) : Host.Outcome State Fault Refusal :=
  .next (s.arriveCommand p 14 tag (parseOptions compression mode readAhead)).settle

/-- QUERY_OUTCOME (R40, R43). -/
def execQueryOutcome (p : Port) (tag : Nat) (s : State) : Host.Outcome State Fault Refusal :=
  .next (if s.resetLine then s else s.answerQuery p tag (.outcome tag (s.port p).outcome))

/-- QUERY_DRIVE (R40, R191). -/
def execQueryDrive (p : Port) (tag group : Nat) (s : State) : Host.Outcome State Fault Refusal :=
  .next (if s.resetLine then s else s.hostQuery p tag group)

/-- DATA_FRAME (R91, R183). -/
def execDataFrame (p : Port) (tag : Nat) (final : Bool) (bytes : List Byte) (s : State) : Host.Outcome State Fault Refusal :=
  .next (if s.resetLine then s else (s.takeData p tag final bytes).settle)

/-- HOST_FRAME_DAMAGED (R182): discarded, and nothing is answered. -/
def execHostFrameDamaged (p : Port) (s : State) : Host.Outcome State Fault Refusal :=
  .next (s.dropReceived p)

/-- HOST_FRAME_SENT (R184): the expansion engine goes on where it waited for the sending (R96). -/
def execHostFrameSent (p : Port) (s : State) : Host.Outcome State Fault Refusal :=
  .next (s.frameSent p).produce

/-- PORT_RESET (R60). -/
def execPortReset (p : Port) (s : State) : Host.Outcome State Fault Refusal :=
  .next (s.resetPort p).settle

end Sys2Proof.Machine
end

