-- ==== Sys2Proof/Machine/LibraryCommands.lean ====
section
/-! DEFINITION. The frames and breaks of the Library Line: the eleven library commands but Device Reset (R14 to R18, R22, R31, R49, R50, R58, R189, R191, R192), damaged frames (R186), breaks and the library line reset (R187), the outgoing break (R188) and the divisor (R185). -/

namespace Sys2Proof.Machine

/-- The load states in which attributes are refused NOT_READY (R14). -/
def attributeRefused : LoadState → Bool
  | .seated => true
  | .tagRead => true
  | .ejected => true
  | _ => false

/-- A grant right byte: 0 empty, 1 READ, 2 READ_WRITE (spec/11 11.6). -/
def rightOf : Nat → Option (Option Right)
  | 0 => some none
  | 1 => some (some .read)
  | 2 => some (some .readWrite)
  | _ => none

/-- The grant entry a Grant writes; none for a parameter out of its range. The physical partition is ignored when the entry is empty (R49, spec/11 11.6). -/
def parseGrant (port logical right physical : Nat) : Option (Port × Nat × Option Grant) :=
  match portOf port, rightOf right with
  | some p, some none => if logicalOk logical then some (p, logical, none) else none
  | some p, some (some x) =>
    if logicalOk logical && inRange 0 3 physical then some (p, logical, some { part := partNumber physical, right := x }) else none
  | _, _ => none

/-- The new divisors that remain once `n` more responses have been sent (R185). -/
def afterSent (n : Nat) (l : List DivisorChange) : List DivisorChange := l.map (fun d => { d with ahead := d.ahead - n })

/-- The load states in which the checkpoint interval timer runs (R163). -/
def intervalStates : LoadState → Bool
  | .ready => true
  | .standby => true
  | .waking => true
  | .draining => true
  | .rewinding => true
  | .faulted => true
  | _ => false

namespace State

/-! ## Arrival (R186, R189) -/

/-- A whole frame has arrived: the receiver is hunting again (R186). -/
def frameTaken (s : State) : State := s.setLp { s.lp with receiver := .hunting }

/-- Whether the response last produced for a taken command has been sent, as the next command finds it (R189): one that reports a new divisor has not, until that divisor takes effect (R185), and any other by a free value. A response that has been sent leaves the queue with those before it (log entry 23). -/
def seeSent (s : State) : State :=
  match s.lp.unsent with
  | none => s
  | some n =>
    if s.lp.newDivisors.isEmpty then
      let sent := Config.responseSent s.free
      let s := s.setFree (s.free + 1)
      if sent then s.setLp { s.lp with tx := s.lp.tx.drop n, unsent := none } else s
    else s

/-- The arrival of a library command's frame (R189): a parameter out of its range is refused FORMAT_FAULT, a command that arrives while one is outstanding, until its response has been sent, BUSY, and any other is taken by its own rule. While the reset line is asserted the frame is discarded (R194). -/
def arriveLibrary (s : State) (code : Nat) (ok : Bool) (rule : State → State) : State :=
  if s.resetLine then s
  else if !ok then s.frameTaken.sendLib .formatFault code .none
  else if s.lp.outstanding.isSome then s.frameTaken.sendLib .busy code .none
  else
    let s := s.frameTaken.seeSent
    if s.lp.unsent.isSome then s.sendLib .busy code .none else rule s

/-- A library command becomes the outstanding one (R189). -/
def hold (s : State) (c : LibCommand) : State := s.setLp { s.lp with outstanding := some c }

/-- A library access of the tag becomes pending (R159). -/
def pendAccess (s : State) (a : LibAccess) : State :=
  ((s.hold (.access a)).setDtc { s.dtc with pendLibrary := some { since := s.clock, access := a } }).tick

/-! ## Load and Unload (R22, R31) -/

/-- Load taken in Seated (R22): the load read is the tag reader's. -/
def beginLoad (s : State) : State :=
  let s := (s.hold .load).setLsq { s.lsq with state := .tagRead, load := some .going }
  s.setDtc { s.dtc with pendLoad := some { since := s.clock, request := .loadRead } }

/-- The Load command by load state (R22). -/
def takeLoad (s : State) : State :=
  match s.lsq.state with
  | .empty => s.answerTaken .noCartridge 1 .none
  | .seated => s.beginLoad
  | _ => s.answerTaken .busy 1 .none

/-- An unload that the library begins, or that a host's has begun in Waking and the library joins (R20, R31). -/
def libraryUnload (s : State) : State :=
  let s := s.hold .unload
  let s := if s.lsq.holder = .nobody then s else s.setLsq { s.lsq with joined := true }
  s.setHolder .library

/-- A library Unload joins the unload in progress (R31): it is outstanding until that ends. A Verify Scan is pending abandonment (R155). -/
def joinUnload (s : State) : State :=
  let s := (s.hold .unload).setLsq { s.lsq with joined := true }
  (s.pendScan .a).pendScan .b

/-- The Unload command by load state (R31). -/
def takeUnload (s : State) : State :=
  match s.lsq.state with
  | .empty => s.answerTaken .noCartridge 2 .none
  | .seated => (s.hold .unload).enterEjected
  | .ready => s.libraryUnload.beginUnload
  | .standby => s.libraryUnload.beginUnload
  | .waking => s.libraryUnload.beginUnload
  | .faulted => s.libraryUnload.forcedPath
  | .draining => s.joinUnload
  | .rewinding => s.joinUnload
  | .closing => s.joinUnload
  | .unthreading => s.joinUnload
  | .ejected => s.answerTaken .ok 2 .none
  | .tagRead => s.answerTaken .notReady 2 .none
  | .threading => s.answerTaken .notReady 2 .none
  | .tensioning => s.answerTaken .notReady 2 .none
  | .recovering => s.answerTaken .notReady 2 .none
  | .cleaning => s.answerTaken .notReady 2 .none

/-! ## Port Cut and Grant (R49, R50, R58) -/

/-- Port Cut taken (R58). -/
def takeCut (s : State) (p : Port) : State := (s.hold (.portCut p)).cutPort p

/-- A port's grant sector replaced, in the ASC and in the store (R47). -/
def setSector (s : State) (p : Port) (x : List (Option Grant)) : State :=
  (s.setPort p { s.port p with sector := x }).setSst { s.sst with grants := s.sst.grants.set p x }

/-- Whether an entry of a port's sector names a partition with READ_WRITE (R50). -/
def mayAppend (s : State) (p : Port) (r : Part) : Bool :=
  (s.port p).sector.any (fun g => g == some { part := r, right := .readWrite })

/-- The session of a port that may no longer append is closed, after a write in service (R50). -/
def closeUngranted (s : State) (p : Port) : State :=
  match s.sessionOf p with
  | none => s
  | some r => if s.mayAppend p r then s else s.requestClose r true

/-- The context becomes Lost where the Grant empties its entry or changes its physical partition (R49). -/
def loseRegranted (s : State) (p : Port) (logical : Nat) (old new : Option Grant) : State :=
  match s.context p with
  | none => s
  | some c =>
    if c.logical = logical && old.isSome && old.map (·.part) != new.map (·.part) then s.setContext p none else s

/-- Grant taken (R49, R50): the entry is written and stored, GRANTS_CHANGED is added, the context and the session follow, and the command ends OK. -/
def takeGrant (s : State) (p : Port) (logical : Nat) (g : Option Grant) : State :=
  let old := s.grantEntry p logical
  let s := s.setSector p ((s.port p).sector.set (logical - 1) g)
  let s := (s.addAttention p .grantsChanged).loseRegranted p logical old g
  (s.closeUngranted p).answerTaken .ok 4 .none

/-! ## The library's tag commands (R14, R16, R18) -/

/-- Whether any session row is in a state other than None. -/
def anyRow (s : State) : Bool := allParts.any (fun r => (s.row r).state != .none)

/-- Lay Out Partitions by load state, layout and sessions (R16). -/
def takeLayOut (s : State) (lanes : List Nat) : State :=
  match s.lsq.state with
  | .empty => s.answerTaken .noCartridge 5 .none
  | st =>
    if st = .ready || st = .standby then
      if !((s.dtc.copy.map (fun d => layoutValid d.type lanes)).getD false) then s.answerTaken .formatFault 5 .none
      else if s.anyRow || s.ports.a.inService.isSome || s.ports.b.inService.isSome then s.answerTaken .busy 5 .none
      else s.pendAccess (.layOut lanes)
    else s.answerTaken .notReady 5 .none

/-- Lock Partition by load state and layout (R18). -/
def takeLock (s : State) (part : Nat) (value : Bool) : State :=
  match s.lsq.state with
  | .empty => s.answerTaken .noCartridge 6 .none
  | st =>
    if st = .ready || st = .standby then
      if (s.partDir (partNumber part)).isNone then s.answerTaken .formatFault 6 .none else s.pendAccess (.lock part value)
    else s.answerTaken .notReady 6 .none

/-- Read Attribute by load state and id (R14). -/
def takeReadAttribute (s : State) (id : Nat) : State :=
  if s.lsq.state = .empty then s.answerTaken .noCartridge 7 .none
  else if attributeRefused s.lsq.state then s.answerTaken .notReady 7 .none
  else if id = 0 then s.answerTaken .ok 7 (.bytes [])
  else if id ≤ 32 then s.pendAccess (.readAttr id)
  else s.answerTaken .formatFault 7 .none

/-- Write Attribute by load state, length and id (R14): more than 64 bytes are refused in every state but Empty. -/
def takeWriteAttribute (s : State) (id : Nat) (bytes : List Byte) : State :=
  if s.lsq.state = .empty then s.answerTaken .noCartridge 8 .none
  else if 64 < bytes.length then s.answerTaken .formatFault 8 .none
  else if attributeRefused s.lsq.state then s.answerTaken .notReady 8 .none
  else if id = 0 then s.answerTaken .ok 8 .none
  else if id ≤ 32 then s.pendAccess (.writeAttr id bytes)
  else s.answerTaken .formatFault 8 .none

/-! ## Set Setting and Query Drive (R191, R192) -/

/-- The checkpoint interval written (R162, R163, R192): a checkpoint request, and the timer restarts with the new interval, or stops at 0. -/
def actInterval (s : State) : State :=
  if s.dtc.copy.isSome && intervalStates s.lsq.state then (s.requestCheckpointFromSetting).startInterval
  else s.requestCheckpointFromSetting

/-- What the setting's owner does at once (R192); a new divisor waits for the sending of the response that will report it, the next to be produced (R185). -/
def actSetting (s : State) (id value : Nat) : State :=
  match id with
  | 3 => s.actInterval
  | 4 => s.judgeMeter
  | 6 => s.setLp { s.lp with newDivisors := s.lp.newDivisors ++ [{ value := value, ahead := s.lp.tx.length + 1 }] }
  | _ => s

/-- Set Setting taken (R192): clamped, stored, acted on, and answered with the value held. -/
def takeSetting (s : State) (id value : Nat) : State :=
  match writeSetting s.sst.settings id value with
  | none => s.answerTaken .formatFault 9 .none
  | some (t, held) => ((s.setSst { s.sst with settings := t }).actSetting id held).answerTaken .ok 9 (.value held)

/-- The library's Query Drive answered (R188, R191, R193): the Library group empties the summary and the cause set. -/
def answerLibrary (s : State) (group : Nat) (p : Port) : State :=
  match s.report group p true with
  | none => s.sendLib .formatFault 10 .none
  | some r =>
    let s := if group = 7 then
        (s.setLp { s.lp with summary := Summary.empty }).setSst { s.sst with causes := Causes.empty }
      else s
    s.sendLib .ok 10 (.report r)

/-! ## Breaks (R187) -/

/-- The start of a break (R187): the frame being assembled is dropped, and a part in Standby goes to Waking (R29). -/
def takeBreak (s : State) : State :=
  let s := s.setLp { s.lp with receiver := .inBreak }
  if s.lsq.state = .standby then s.enterWaking else s

/-- A library line reset (R187): the receiver hunts, unsent responses are discarded, a waiting access is abandoned, and the one-outstanding count is free. A divisor whose response is discarded does not take effect. -/
def resetLibraryLine (s : State) : State :=
  let s := s.setLp { s.lp with receiver := .hunting, tx := [], outstanding := none, unsent := none, newDivisors := [] }
  s.setDtc { s.dtc with pendLibrary := none }

/-- A new divisor takes effect once the response that reports it has been sent, with every response before it (R185); the command that one of them answers is then no longer outstanding (R189). -/
def takeDivisor (s : State) : State :=
  match s.lp.newDivisors with
  | [] => s
  | d :: rest =>
    s.setLp
      { s.lp with
        divisor := d.value, newDivisors := afterSent d.ahead rest, tx := s.lp.tx.drop d.ahead
        unsent := s.lp.unsent.bind (fun n => if n ≤ d.ahead then none else some (n - d.ahead)) }

end State

/-- LOAD (R22, R189). -/
def execLoad (s : State) : Host.Outcome State Fault Refusal :=
  .next (s.arriveLibrary 1 true State.takeLoad).settle

/-- UNLOAD (R31, R189). -/
def execUnload (s : State) : Host.Outcome State Fault Refusal :=
  .next (s.arriveLibrary 2 true State.takeUnload).settle

/-- PORT_CUT (R58, R59, R189). -/
def execPortCut (port : Nat) (s : State) : Host.Outcome State Fault Refusal :=
  match portOf port with
  | none => .next (s.arriveLibrary 3 false id)
  | some p => .next (s.arriveLibrary 3 true (fun s => s.takeCut p)).settle

/-- GRANT (R49, R50, R189). -/
def execGrant (port logical right physical : Nat) (s : State) : Host.Outcome State Fault Refusal :=
  match parseGrant port logical right physical with
  | none => .next (s.arriveLibrary 4 false id)
  | some (p, l, g) => .next (s.arriveLibrary 4 true (fun s => s.takeGrant p l g)).settle

/-- LAY_OUT_PARTITIONS (R16, R189): 1 to 4 lane counts of one byte. -/
def execLayOutPartitions (lanes : List Nat) (s : State) : Host.Outcome State Fault Refusal :=
  .next (s.arriveLibrary 5 (inRange 1 4 lanes.length && lanes.all (inRange 0 255)) (fun s => s.takeLayOut lanes)).settle

/-- LOCK_PARTITION (R18, R189). -/
def execLockPartition (physical value : Nat) (s : State) : Host.Outcome State Fault Refusal :=
  match flagOf value with
  | none => .next (s.arriveLibrary 6 false id)
  | some v => .next (s.arriveLibrary 6 (inRange 0 3 physical) (fun s => s.takeLock physical v)).settle

/-- READ_ATTRIBUTE (R14, R189). -/
def execReadAttribute (n : Nat) (s : State) : Host.Outcome State Fault Refusal :=
  .next (s.arriveLibrary 7 (inRange 0 255 n) (fun s => s.takeReadAttribute n)).settle

/-- WRITE_ATTRIBUTE (R14, R189): a frame holds at most 252 bytes. -/
def execWriteAttribute (n : Nat) (bytes : List Byte) (s : State) : Host.Outcome State Fault Refusal :=
  .next (s.arriveLibrary 8 (inRange 0 255 n && bytes.length ≤ 252) (fun s => s.takeWriteAttribute n bytes)).settle

/-- SET_SETTING (R189, R192). -/
def execSetSetting (n value : Nat) (s : State) : Host.Outcome State Fault Refusal :=
  .next (s.arriveLibrary 9 (inRange 1 6 n && inRange 0 65535 value) (fun s => s.takeSetting n value)).settle

/-- LIBRARY_QUERY_DRIVE (R189, R191): answered at once, also while a library command is outstanding. -/
def execLibraryQueryDrive (group port : Nat) (s : State) : Host.Outcome State Fault Refusal :=
  .next (
    if s.resetLine then s
    else
      match portOf port with
      | none => s.frameTaken.sendLib .formatFault 10 .none
      | some p => if inRange 1 7 group then s.frameTaken.answerLibrary group p else s.frameTaken.sendLib .formatFault 10 .none)

/-- LIBRARY_FRAME_DAMAGED (R186): FRAME_REJECTED, the receiver hunting, and the outstanding command undisturbed. -/
def execLibraryFrameDamaged (s : State) : Host.Outcome State Fault Refusal :=
  .next (if s.resetLine then s else s.frameTaken.sendLib .frameRejected 0 .none)

/-- BREAK (R187, R29). -/
def execLineBreak (s : State) : Host.Outcome State Fault Refusal :=
  .next s.takeBreak

/-- BREAK_END (R187): the receiver hunts again. -/
def execBreakEnd (s : State) : Host.Outcome State Fault Refusal :=
  .next (s.setLp { s.lp with receiver := .hunting })

/-- LIBRARY_LINE_RESET (R187). -/
def execLibraryLineReset (s : State) : Host.Outcome State Fault Refusal :=
  .next s.resetLibraryLine

/-- OUTGOING_BREAK (R188): a due break is sent. -/
def execOutgoingBreak (s : State) : Host.Outcome State Fault Refusal :=
  .next (s.setLp { s.lp with breakDue := false })

/-- NEW_DIVISOR_EFFECTIVE (R185). -/
def execNewDivisorEffective (s : State) : Host.Outcome State Fault Refusal :=
  .next s.takeDivisor

end Sys2Proof.Machine
end

