-- ==== Sys2Proof/Machine/Resets.lean ====
section
/-! DEFINITION. Power-on (R20), the Device Reset by command and by line (R194), and the reset line's release. -/

namespace Sys2Proof.Machine

/-- The cause a Device Reset command adds (R193). -/
def causeCommand : Causes := { powerOn := false, resetLine := false, resetCommand := true }

/-- The cause the reset line adds (R193). -/
def causeLine : Causes := { powerOn := false, resetLine := true, resetCommand := false }

/-- POWER_ON (R20). -/
def execPowerOn (cartridge : Option Tag) (threaded tab : Bool) (s : State) : Host.Outcome State Fault Refusal :=
  .next (s.switchOn cartridge threaded tab)

/-- DEVICE_RESET (R189, R194): taken at arrival, and its OK sent after its effects; discarded while the reset line is asserted. -/
def execDeviceReset (s : State) : Host.Outcome State Fault Refusal :=
  .next (if s.resetLine then s else (s.resetDevice causeCommand).sendLib .ok 11 .none)

/-- RESET_LINE (R194): the line's assertion; a line already asserted stays so. -/
def execResetLine (s : State) : Host.Outcome State Fault Refusal :=
  .next (if s.resetLine then s else (s.resetDevice causeLine).setResetLine true)

/-- RESET_LINE_RELEASE (R194): frames are taken again. -/
def execResetLineRelease (s : State) : Host.Outcome State Fault Refusal :=
  .next (s.setResetLine false)

end Sys2Proof.Machine
end

