-- ==== Sys2Proof/Machine/MechanismEvents.lean ====
section
/-! DEFINITION. The events of the mechanism: cartridge and write tab (R19, R21), leader (R23, R36), thread timer (R23) and tension (R24, R30, R34, R37). An event in a state that no rule names changes nothing. -/

namespace Sys2Proof.Machine

namespace State

/-! ## Cartridge and write tab -/

/-- A cartridge inserted in Empty (R21): the write tab is sensed with it (R19). -/
def insertCartridge (s : State) (tag : Tag) (tab : Bool) : State :=
  if s.lsq.state = .empty then
    (s.setLsq { s.lsq with state := .seated, kind := .absent }).setCart { tag := some tag, writeTab := tab }
  else s

/-- The cartridge removed (R21): from Ejected the machine is Empty; from any other state but Empty it has been pulled. -/
def removeCartridge (s : State) : State :=
  match s.lsq.state with
  | .empty => s
  | .ejected => (s.setLsq { s.lsq with state := .empty, kind := .absent }).dropTransaction.noCartridge
  | _ => s.pullCartridge.noCartridge

/-- A write-tab change sensed while a cartridge is present (R19): sessions on partitions that have become protected are closed. -/
def changeTab (s : State) (tab : Bool) : State :=
  if s.lsq.state = .empty then s
  else allParts.foldl (fun s r => s.closeProtected r) (s.setCart { s.cart with writeTab := tab })

/-! ## Threading (R23) -/

/-- The leader is captured in Threading (R23): the head is at lane 0, coordinate 0 (R61), and the machine takes up tension. -/
def captureLeader (s : State) : State :=
  if s.lsq.state = .threading then
    let s := s.setLsq { s.lsq with state := .tensioning, threadTimer := none }
    s.setMsc { s.msc with head := { lane := 0, coord := 0 }, motion := .stopped, landmark := none }
  else s

/-- The third expiry of the thread timer (R23): the cartridge is unthreaded, Load is to end THREAD_FAULT, and a cleaning run is given up (R179). -/
def threadFails (s : State) : State :=
  let s := (s.setLsq { s.lsq with load := s.lsq.load.map (fun _ => .endsThreadFault) }).abandonCleaning
  s.enterUnthreading .ejected

/-- The thread timer's expiry (R23): a fresh capture, up to two times. -/
def expireThread (s : State) : State :=
  if s.lsq.state = .threading && s.lsq.threadTimer.isSome then
    if s.lsq.retries < 2 then s.setLsq { s.lsq with retries := s.lsq.retries + 1, threadTimer := some threadTime }
    else s.threadFails
  else s

/-! ## Tension (R24, R30, R34, R37) -/

/-- Tension settled in Tensioning (R24, R37). -/
def settleTensioning (s : State) : State :=
  if s.lsq.resetPath then
    let s := s.enter .tagRead
    s.setDtc { s.dtc with pendLoad := some { since := s.clock, request := .reread } }
  else
    match s.lsq.kind with
    | .cleaning =>
      let s := s.enter .cleaning
      s.setMsc { s.msc with libWork := some .cleaningRun }
    | _ => if s.copyCurrent then s.enterReady else s.enterRecovering

/-- Tension settled in Waking (R30, R61): Draining where an unload holder is set, Ready otherwise. -/
def settleWaking (s : State) : State :=
  let s := s.setMsc { s.msc with motion := .stopped }
  if s.lsq.holder = .nobody then s.wakeToReady else s.enterDraining

/-- Tension settled (R24, R30, R37). -/
def settleTension (s : State) : State :=
  match s.lsq.state with
  | .tensioning => s.settleTensioning
  | .waking => s.settleWaking
  | _ => s

/-- Tension lost (R29, R34): an emergency stop in the states that R34 names, the attention reason alone in Closing and Unthreading, nothing elsewhere. -/
def loseTension (s : State) : State :=
  if tensionStates s.lsq.state || (s.lsq.state == .tagRead && s.lsq.resetPath) then s.emergencyStop
  else if s.lsq.state = .closing || s.lsq.state = .unthreading then s.addReason .tensionLost
  else s

/-- The leader is released in Unthreading (R36). -/
def releaseLeader (s : State) : State := if s.lsq.state = .unthreading then s.leaderOut else s

end State

/-- CARTRIDGE_INSERTED (R21). -/
def execCartridgeInserted (tag : Tag) (tab : Bool) (s : State) : Host.Outcome State Fault Refusal :=
  .next (s.insertCartridge tag tab)

/-- CARTRIDGE_REMOVED (R21). -/
def execCartridgeRemoved (s : State) : Host.Outcome State Fault Refusal :=
  .next s.removeCartridge.settle

/-- WRITE_TAB_CHANGE (R19). -/
def execWriteTabChange (tab : Bool) (s : State) : Host.Outcome State Fault Refusal :=
  .next (s.changeTab tab).settle

/-- LEADER_CAPTURED (R23). -/
def execLeaderCaptured (s : State) : Host.Outcome State Fault Refusal :=
  .next s.captureLeader

/-- THREAD_TIMER_EXPIRY (R23). -/
def execThreadTimerExpiry (s : State) : Host.Outcome State Fault Refusal :=
  .next s.expireThread

/-- TENSION_SETTLED (R24, R30, R37). -/
def execTensionSettled (s : State) : Host.Outcome State Fault Refusal :=
  .next s.settleTension.settle

/-- TENSION_LOST (R34). -/
def execTensionLost (s : State) : Host.Outcome State Fault Refusal :=
  .next s.loseTension.settle

/-- LEADER_RELEASED (R36). -/
def execLeaderReleased (s : State) : Host.Outcome State Fault Refusal :=
  .next s.releaseLeader

end Sys2Proof.Machine
end

