-- ==== Sys2Proof/Machine/TransportEvents.lean ====
section
/-! DEFINITION. The events of the transport and the head channel: relocations (R69), headers (R76, R143, R145, R167), copies (R144), rewrites passed (R145, R167), the look-ahead's end (R146), blank stretches (R168), lane ends (R76, R123, R145, R167), writing (R122) and outcomes (R123 to R125). An event that the transport's activity does not call for changes nothing. -/

namespace Sys2Proof.Machine

/-- The stripe slots of the look-ahead (R145). -/
def lookAheadSpan : Nat := 512

/-- The stripe slots of a blank stretch (R167). -/
def blankSlots : Nat := 48

namespace State

/-! ## Headers -/

/-- The head at a header's first stripe, with the landmark replaced by it (R74). -/
def meetHeader (s : State) (r : Part) (o : Nat) (h : SegHeader) (l : List Entry) : State :=
  (s.headTo o).setLandmark r s.msc.head.lane o h l

/-- A header read in a header scan (R76); the recorded end, where one lies at or beyond it, ends the scan (R144). -/
def scanMeets (s : State) (x : HeaderScan) (o : Nat) (h : SegHeader) (l : List Entry) : State :=
  if s.pastEnd x.part o then (s.headTo (s.readEnd x.part)).failScan
  else (s.headTo o).scanHeader x s.msc.head.lane o h l (fun s a => s.beginCopy a) (fun s => s.streamFor .scanning)

/-- A header read while seeking the next segment (R143, R151, R153, R167). -/
def seekMeets (s : State) (o : Nat) (h : SegHeader) (l : List Entry) : State :=
  if s.recovering then
    match s.dtc.recovery with
    | none => s
    | some x => (s.headTo o).recoveryHeader x o h l
  else
    match s.readingPart with
    | none => s
    | some r =>
      if s.pastEnd r o then (s.headTo (s.readEnd r)).seekEnds
      else (s.meetHeader r o h l).seekHeader o h.number (some h.attempt)

/-- A header read, by what the transport is doing. -/
def takeHeader (s : State) (o : Nat) (h : SegHeader) (l : List Entry) : State :=
  match s.msc.activity with
  | .scanning =>
    (match s.msc.scan with
    | none => s
    | some x => s.scanMeets x o h l)
  | .seeking => s.seekMeets o h l
  | .lookingAhead =>
    (match s.rdu.acc with
    | none => s
    | some a => s.headerPassed a o h l)
  | _ => s

/-- An unreadable header in a header scan is handed to the Read Unit's recovery (R76). -/
def scanUnreadable (s : State) (x : HeaderScan) (o : Nat) : State :=
  if s.pastEnd x.part o then (s.headTo (s.readEnd x.part)).failScan
  else
    let s := s.headTo o
    s.startCopy (s.newAcc x.part (scanNumber x) none o true none)

/-- An unreadable header while seeking (R143, R167): it is taken as the segment expected next. -/
def seekUnreadable (s : State) (o : Nat) : State :=
  if s.recovering then
    match s.dtc.recovery with
    | none => s
    | some x =>
      let s := s.headTo o
      s.startCopy (s.newAcc (partNumber x.part) x.expected none o false none)
  else
    match s.readingPart, s.expectedNumber with
    | some r, some n => if s.pastEnd r o then (s.headTo (s.readEnd r)).seekEnds else (s.headTo o).seekHeader o n none
    | _, _ => s

/-- A header that cannot be read, by what the transport is doing. -/
def takeUnreadable (s : State) (o : Nat) : State :=
  match s.msc.activity with
  | .scanning =>
    (match s.msc.scan with
    | none => s
    | some x => s.scanUnreadable x o)
  | .seeking => s.seekUnreadable o
  | .lookingAhead =>
    (match s.rdu.acc with
    | none => s
    | some a => if s.pastEnd a.part o then (s.headTo (s.readEnd a.part)).passEnds a else s.aheadTo a o)
  | _ => s

/-! ## Copies, rewrites and the look-ahead -/

/-- The readable stripes of the copy the head has passed (R144). A header scan stopped by a port reset, its copy given up, has come to the segment's end (R83, R140). -/
def takeStripes (s : State) (readable : StripeSet) (named : Bool) (content : Segment) : State :=
  match s.msc.activity, s.rdu.acc with
  | .reading, some a => s.copyPassed a readable named content
  | .reading, none => if s.stopping then (s.headTo (s.msc.head.offset + 16)).endStopped else s
  | _, _ => s

/-- In the recovery scan, a rewrite of an applied segment moves the end place (R167). -/
def recoveryRewrite (s : State) (o segment attempt : Nat) : State :=
  match s.dtc.recovery with
  | none => s
  | some x => if s.recovering then s.passRewrite x segment attempt o else s

/-- A readable rewrite stripe passed (R145, R167). -/
def takeRewriteStripe (s : State) (o segment attempt stripe : Nat) : State :=
  match s.msc.activity with
  | .lookingAhead =>
    (match s.rdu.acc with
    | none => s
    | some a => (s.recoveryRewrite o segment attempt).rewritePassed a o segment attempt stripe)
  | .seeking => if s.recovering then (s.headTo (o + 1)).recoveryRewrite o segment attempt else s
  | _ => s

/-- The look-ahead's span is passed, or the recorded used-slot offset before its end (R145). -/
def spanEnds (s : State) : State :=
  match s.msc.activity, s.rdu.acc with
  | .lookingAhead, some a =>
    (s.headTo (min (s.readEnd a.part) (s.msc.head.offset + (lookAheadSpan - a.passed)))).passEnds a
  | _, _ => s

/-- A blank stretch met while the recovery scan seeks its next segment ends the partition's scan (R168); one met while a copy is read or in its look-ahead changes nothing (R145; DESIGN CHOICE, log entry 91). -/
def takeBlank (s : State) : State :=
  match s.msc.activity, s.dtc.recovery with
  | .seeking, some x => if s.recovering then (s.headTo (s.msc.head.offset + blankSlots)).endPartition x x.endPlace else s
  | _, _ => s

/-! ## Lane ends -/

/-- A header scan at a lane's end (R76): on to the next lane, or failed at the partition's last or at the recorded end. -/
def scanLaneEnd (s : State) (x : HeaderScan) : State :=
  if s.endsOnLane x.part then (s.headTo (s.readEnd x.part)).failScan else s.nextLane.streamFor .scanning

/-- A reading that seeks its next segment at a lane's end (R76, R144, R151, R167). -/
def seekLaneEnd (s : State) : State :=
  if s.recovering then
    match s.dtc.recovery with
    | none => s
    | some x => s.recoveryLaneEnd x
  else
    match s.readingPart with
    | none => s
    | some r =>
      if s.endsOnLane r then (s.headTo (s.readEnd r)).seekEnds else s.nextLane.streamFor .seeking

/-- The look-ahead at a lane's end (R145): on to the next lane with its slots counted, or its end. -/
def aheadLaneEnd (s : State) (a : Acc) : State :=
  if s.endsOnLane a.part then (s.headTo (s.readEnd a.part)).passEnds a
  else (s.nextLane.setAcc (some { a with passed := a.passed + s.slotsTo laneSlots })).streamFor .lookingAhead

/-- The head reaches a lane's end with the outcomes that arrive there (R123); then the work goes on. -/
def reachLaneEnd (s : State) (outcomes : List ChannelOutcome) : State :=
  match s.msc.activity with
  | .runningOut => (outcomes.foldl State.takeOutcome (s.headTo laneSlots)).afterOutcome laneSlots
  | .scanning =>
    (match s.msc.scan with
    | none => s
    | some x => s.scanLaneEnd x)
  | .seeking => s.seekLaneEnd
  | .lookingAhead =>
    (match s.rdu.acc with
    | none => s
    | some a => s.aheadLaneEnd a)
  | _ => (outcomes.foldl State.takeOutcome s).afterOutcome laneSlots

/-! ## Writing -/

/-- The segment in hand has been written (R122), and the next write is chosen. -/
def segmentWritten (s : State) : State :=
  match s.msc.activity, s.writingRow with
  | .writing (.segment n), some r =>
    (match s.writeSlotOf r n with
    | none => s
    | some i => (s.writeSegment r i (s.slot i)).choose r)
  | _, _ => s

/-- The rewrite in hand has been written (R122), and the next write is chosen. -/
def rewriteWritten (s : State) : State :=
  match s.msc.activity, s.writingRow with
  | .writing (.rewrite n i), some r => (s.writeRewrite r n i).choose r
  | _, _ => s

/-- A verify outcome arrives (R123, R124). -/
def verifyArrives (s : State) (segment attempt : Nat) (failed : StripeSet) : State :=
  match s.wvu.window with
  | [] => s
  | e :: _ =>
    if e.segment = segment && e.attempt = attempt then
      ((s.headAtOutcome e.lastStripe).takeVerify segment attempt failed).afterOutcome (outcomeOffset e.lastStripe)
    else s

/-- A rewrite outcome arrives (R123, R125). -/
def rewriteArrives (s : State) (segment stripe : Nat) (passed : Bool) : State :=
  match s.awaitedRewrite segment stripe with
  | none => s
  | some e => ((s.headAtOutcome e.offset).takeRewrite segment stripe passed).afterOutcome (outcomeOffset e.offset)

end State

/-- RELOCATION_COMPLETE (R69). -/
def execRelocationComplete (s : State) : Host.Outcome State Fault Refusal :=
  .next s.arriveRelocation.settle

/-- HEADER_READ (R76). -/
def execHeaderRead (offset : Nat) (header : SegHeader) (entries : List Entry) (s : State) : Host.Outcome State Fault Refusal :=
  .next (s.takeHeader offset header entries).settle

/-- HEADER_UNREADABLE (R76). -/
def execHeaderUnreadable (offset : Nat) (s : State) : Host.Outcome State Fault Refusal :=
  .next (s.takeUnreadable offset).settle

/-- STRIPE_SET_READ (R144). -/
def execStripeSetRead (readable : StripeSet) (named : Bool) (content : Segment) (s : State) : Host.Outcome State Fault Refusal :=
  .next (s.takeStripes readable named content).settle

/-- REWRITE_STRIPE_READ (R145). -/
def execRewriteStripeRead (offset segment attempt stripe : Nat) (s : State) : Host.Outcome State Fault Refusal :=
  .next (s.takeRewriteStripe offset segment attempt stripe).settle

/-- LOOK_AHEAD_SPAN_END (R145, R146). -/
def execLookAheadSpanEnd (s : State) : Host.Outcome State Fault Refusal :=
  .next s.spanEnds.settle

/-- BLANK_STRETCH (R167, R168). -/
def execBlankStretch (s : State) : Host.Outcome State Fault Refusal :=
  .next s.takeBlank.settle

/-- LANE_END_REACHED (R123). -/
def execLaneEndReached (outcomes : List ChannelOutcome) (s : State) : Host.Outcome State Fault Refusal :=
  .next (s.reachLaneEnd outcomes).settle

/-- SEGMENT_WRITTEN (R122). -/
def execSegmentWritten (s : State) : Host.Outcome State Fault Refusal :=
  .next s.segmentWritten.settle

/-- REWRITE_WRITTEN (R122). -/
def execRewriteWritten (s : State) : Host.Outcome State Fault Refusal :=
  .next s.rewriteWritten.settle

/-- VERIFY_OUTCOME (R124). -/
def execVerifyOutcome (segment attempt : Nat) (failed : StripeSet) (s : State) : Host.Outcome State Fault Refusal :=
  .next (s.verifyArrives segment attempt failed).settle

/-- REWRITE_OUTCOME (R125). -/
def execRewriteOutcome (segment stripe : Nat) (passed : Bool) (s : State) : Host.Outcome State Fault Refusal :=
  .next (s.rewriteArrives segment stripe passed).settle

end Sys2Proof.Machine
end

