-- ==== Sys2Proof/Machine/TimersAndGrants.lean ====
section
/-! DEFINITION. The part's own timers (R53, R137, R163, R180), the tag reader's events (R158, R159), the engines' steps (R91, R92, R95 to R97), the grants and waits of the buffer (R102, R143), the access controller's internal steps (R41, R55, R131, R132), the turns (R64, R67, R130) and the end of Draining (R32). Each is a step of its own: where it is not due it changes nothing (log entry 3). -/

namespace Sys2Proof.Machine

/-- Whether the rate review's timer runs in a turn of this work (R136). -/
def rateTurn : Job → Bool
  | .drain .. => true
  | .read _ => true
  | .fill _ => true
  | _ => false

namespace State

/-! ## Timers -/

/-- The hold timer of a row expires (R53): its session closes. -/
def expireHold (s : State) (r : Part) : State :=
  if (s.row r).state.isActive && (s.row r).holdTimer.isSome then
    (s.setRow r { s.row r with holdTimer := none }).requestClose r false
  else s

/-- The checkpoint interval timer expires (R163): a request, and the full interval again. -/
def expireInterval (s : State) : State :=
  if s.dtc.interval.isSome then (s.requestCheckpoint false).startInterval else s

/-- The cleaning timer expires (R180): the run is complete, and the cartridge is unthreaded (R24). -/
def expireCleaning (s : State) : State :=
  match s.hcm.run with
  | .running n _ =>
    let s := (s.completeCleaning.endTurn).setLsq { s.lsq with load := s.lsq.load.map (fun _ => .endsCleaned n) }
    s.enterUnthreading .ejected
  | _ => s

/-- Whether the rate selector's window runs: its subject streams in a drain turn, a Read Record turn or a fill (R136). -/
def rateRuns (s : State) : Bool :=
  s.msc.motion == .streaming && s.wvu.rate.subject != .nobody && (s.job.map rateTurn).getD false

/-- A review of the rate (R137). -/
def reviewRate (s : State) : State :=
  if s.rateRuns then s.setWvu { s.wvu with rate := s.wvu.rate.review } else s

/-! ## The buffer's waits -/

/-- A Verify Scan at a segment whose slot it awaits goes on when it may take one, or when another slot holds the segment (R113, R153). -/
def endScanWait (s : State) (p : Port) : State :=
  match s.job, s.msc.activity, s.rdu.acc with
  | some (.verify q), .awaitingSlot, some a =>
    if q = p then
      match lookupSlot s.sbm.slots a.part a.number with
      | some i => (s.pinSlot i p).beginCopy { a with slot := some i }
      | none =>
        let s := s.settleRequests
        match slotForRead s.sbm.slots p with
        | none => s
        | some i => (s.takeReadSlot i p a.part a.number).beginCopy { a with slot := some i }
    else s
  | _, _, _ => s

/-- A Read Record that awaits a slot is eligible again when it may take one (R143). -/
def endReadWait (s : State) (p : Port) : State :=
  match s.rdu.reads.get p with
  | none => s
  | some x =>
    if x.phase = .awaitingSlot && (slotForRead s.sbm.slots p).isSome then s.setRead p (some { x with phase := .awaitingTurn }) else s

/-! ## The access controller's waits -/

/-- A Sync, or a Write Marks with its sync flag, whose session has nothing left unverified or assembling ends OK (R132, R133). -/
def endSync (s : State) (p : Port) : State :=
  match (s.port p).inService with
  | none => s
  | some c =>
    match c.phase with
    | .awaitSync r =>
      if !s.holds p r || ((s.row r).unverified = 0 && (s.assemblingOf r).isNone) then s.endWriteOk p else s
    | _ => s

/-- A Verified-mode write whose segment has verified ends OK (R131). -/
def endVerified (s : State) (p : Port) : State :=
  match (s.port p).inService with
  | none => s
  | some c =>
    match c.phase with
    | .awaitVerify r n => if !s.holds p r || n < s.committedSegments r then s.endWriteOk p else s
    | _ => s

/-! ## The transport's waits -/

/-- The backhitch wait ends on 4 READY segments or a demand (R130). -/
def endBackhitch (s : State) : State :=
  match s.wvu.backhitch with
  | none => s
  | some r =>
    if s.writingRow = some r && s.msc.activity == .backhitched && (4 ≤ s.readyCount r || s.drainDemand r) then
      (s.setWvu { s.wvu with backhitch := none }).choose r
    else s

/-- Draining has come to its end (R32). -/
def endDraining (s : State) : State := if s.lsq.state = .draining && s.drained then s.enterRewinding else s

end State

/-- HOLD_TIMER_EXPIRY (R53). -/
def execHoldTimerExpiry (row : Part) (s : State) : Host.Outcome State Fault Refusal :=
  .next (s.expireHold row).settle

/-- INTERVAL_TIMER_EXPIRY (R163). -/
def execIntervalTimerExpiry (s : State) : Host.Outcome State Fault Refusal :=
  .next s.expireInterval

/-- CLEANING_TIMER_EXPIRY (R180). -/
def execCleaningTimerExpiry (s : State) : Host.Outcome State Fault Refusal :=
  .next s.expireCleaning

/-- RATE_REVIEW (R137). -/
def execRateReview (s : State) : Host.Outcome State Fault Refusal :=
  .next s.reviewRate

/-- TAG_TRANSACTION_DONE (R158). -/
def execTagTransactionDone (success : Bool) (s : State) : Host.Outcome State Fault Refusal :=
  .next (s.endTransaction success).settle

/-- TAG_TRANSACTION_TIMEOUT (R158): taken as failed. -/
def execTagTransactionTimeout (s : State) : Host.Outcome State Fault Refusal :=
  .next (s.endTransaction false).settle

/-- TAG_READER_GRANT (R159). -/
def execTagReaderGrant (s : State) : Host.Outcome State Fault Refusal :=
  .next s.grantReader.settle

/-- RECORD_PACKED (R92). -/
def execRecordPacked (s : State) : Host.Outcome State Fault Refusal :=
  .next s.completeRecord.settle

/-- PACKING_ENGINE_TAKES_RECORD (R91). -/
def execPackingEngineTakesRecord (s : State) : Host.Outcome State Fault Refusal :=
  .next s.takeRecord

/-- EXPANSION_ENGINE_TAKES_REQUEST (R95). -/
def execExpansionEngineTakesRequest (s : State) : Host.Outcome State Fault Refusal :=
  .next s.takeRequest.settle

/-- RECORD_EXPANDED (R96, R148, R153). -/
def execRecordExpanded (s : State) : Host.Outcome State Fault Refusal :=
  .next s.expanded.settle

/-- DECODE_FAULT (R97). -/
def execDecodeFault (s : State) : Host.Outcome State Fault Refusal :=
  .next s.decodeFaults.settle

/-- SLOT_REQUEST_GRANTED (R102). -/
def execSlotRequestGranted (s : State) : Host.Outcome State Fault Refusal :=
  .next s.grantRequest.settle

/-- READ_SLOT_WAIT_ENDS (R143). -/
def execReadSlotWaitEnds (p : Port) (s : State) : Host.Outcome State Fault Refusal :=
  .next ((s.endReadWait p).endScanWait p).settle

/-- COMMAND_TAKEN_INTO_SERVICE (R41). -/
def execCommandTakenIntoService (p : Port) (s : State) : Host.Outcome State Fault Refusal :=
  .next (s.takeOldest p).settle

/-- CLOSING_WAIT_ENDS (R55). -/
def execClosingWaitEnds (p : Port) (s : State) : Host.Outcome State Fault Refusal :=
  .next (s.endClosingWait p).settle

/-- SYNC_COMPLETE (R132). -/
def execSyncComplete (p : Port) (s : State) : Host.Outcome State Fault Refusal :=
  .next (s.endSync p).settle

/-- VERIFIED_ACK (R131). -/
def execVerifiedAck (p : Port) (s : State) : Host.Outcome State Fault Refusal :=
  .next (s.endVerified p).settle

/-- TURN_GRANT (R64). -/
def execTurnGrant (s : State) : Host.Outcome State Fault Refusal :=
  .next s.grantTurn.settle

/-- LEAVING_PROCEDURE_DONE (R67). -/
def execLeavingProcedureDone (s : State) : Host.Outcome State Fault Refusal :=
  .next s.leavingDone.settle

/-- BACKHITCH_WAIT_END (R130). -/
def execBackhitchWaitEnd (s : State) : Host.Outcome State Fault Refusal :=
  .next s.endBackhitch.settle

/-- DRAINING_END (R32). -/
def execDrainingEnd (s : State) : Host.Outcome State Fault Refusal :=
  .next s.endDraining

end Sys2Proof.Machine
end

