-- ==== Sys2Proof/Machine/Dispatch.lean ====
section
/-! DEFINITION. The meaning of each command: one arm for each constructor of `Instr`, one direct call of its own meaning. -/

namespace Sys2Proof.Machine

def exec (i : Instr) (s : State) : Host.Outcome State Fault Refusal :=
  match i with
  | .powerOn cartridge threaded tab => Sys2Proof.Machine.execPowerOn cartridge threaded tab s
  | .deviceReset => Sys2Proof.Machine.execDeviceReset s
  | .resetLine => Sys2Proof.Machine.execResetLine s
  | .resetLineRelease => Sys2Proof.Machine.execResetLineRelease s
  | .portReset p => Sys2Proof.Machine.execPortReset p s
  | .writeRecord p tag rawLength => Sys2Proof.Machine.execWriteRecord p tag rawLength s
  | .writeMarks p tag count sync => Sys2Proof.Machine.execWriteMarks p tag count sync s
  | .readRecord p tag limit => Sys2Proof.Machine.execReadRecord p tag limit s
  | .verifyScan p tag => Sys2Proof.Machine.execVerifyScan p tag s
  | .locate p tag logical object => Sys2Proof.Machine.execLocate p tag logical object s
  | .spaceObjects p tag direction count => Sys2Proof.Machine.execSpaceObjects p tag direction count s
  | .spaceMarks p tag direction count => Sys2Proof.Machine.execSpaceMarks p tag direction count s
  | .seekEnd p tag => Sys2Proof.Machine.execSeekEnd p tag s
  | .rewind p tag logical => Sys2Proof.Machine.execRewind p tag logical s
  | .truncate p tag => Sys2Proof.Machine.execTruncate p tag s
  | .sync p tag => Sys2Proof.Machine.execSync p tag s
  | .park p tag => Sys2Proof.Machine.execPark p tag s
  | .unloadRequest p tag => Sys2Proof.Machine.execUnloadRequest p tag s
  | .setPortOptions p tag compression mode readAhead => Sys2Proof.Machine.execSetPortOptions p tag compression mode readAhead s
  | .queryOutcome p tag => Sys2Proof.Machine.execQueryOutcome p tag s
  | .queryDrive p tag group => Sys2Proof.Machine.execQueryDrive p tag group s
  | .dataFrame p tag final bytes => Sys2Proof.Machine.execDataFrame p tag final bytes s
  | .hostFrameDamaged p => Sys2Proof.Machine.execHostFrameDamaged p s
  | .load => Sys2Proof.Machine.execLoad s
  | .unload => Sys2Proof.Machine.execUnload s
  | .portCut port => Sys2Proof.Machine.execPortCut port s
  | .grant port logical right physical => Sys2Proof.Machine.execGrant port logical right physical s
  | .layOutPartitions lanes => Sys2Proof.Machine.execLayOutPartitions lanes s
  | .lockPartition physical value => Sys2Proof.Machine.execLockPartition physical value s
  | .readAttribute id => Sys2Proof.Machine.execReadAttribute id s
  | .writeAttribute id bytes => Sys2Proof.Machine.execWriteAttribute id bytes s
  | .setSetting id value => Sys2Proof.Machine.execSetSetting id value s
  | .libraryQueryDrive group port => Sys2Proof.Machine.execLibraryQueryDrive group port s
  | .libraryFrameDamaged => Sys2Proof.Machine.execLibraryFrameDamaged s
  | .lineBreak => Sys2Proof.Machine.execLineBreak s
  | .libraryLineReset => Sys2Proof.Machine.execLibraryLineReset s
  | .outgoingBreak => Sys2Proof.Machine.execOutgoingBreak s
  | .newDivisorEffective => Sys2Proof.Machine.execNewDivisorEffective s
  | .cartridgeInserted tag tab => Sys2Proof.Machine.execCartridgeInserted tag tab s
  | .cartridgeRemoved => Sys2Proof.Machine.execCartridgeRemoved s
  | .writeTabChange tab => Sys2Proof.Machine.execWriteTabChange tab s
  | .leaderCaptured => Sys2Proof.Machine.execLeaderCaptured s
  | .threadTimerExpiry => Sys2Proof.Machine.execThreadTimerExpiry s
  | .tensionSettled => Sys2Proof.Machine.execTensionSettled s
  | .tensionLost => Sys2Proof.Machine.execTensionLost s
  | .leaderReleased => Sys2Proof.Machine.execLeaderReleased s
  | .relocationComplete => Sys2Proof.Machine.execRelocationComplete s
  | .headerRead offset header entries => Sys2Proof.Machine.execHeaderRead offset header entries s
  | .headerUnreadable offset => Sys2Proof.Machine.execHeaderUnreadable offset s
  | .stripeSetRead readable named content => Sys2Proof.Machine.execStripeSetRead readable named content s
  | .rewriteStripeRead offset segment attempt stripe => Sys2Proof.Machine.execRewriteStripeRead offset segment attempt stripe s
  | .lookAheadSpanEnd => Sys2Proof.Machine.execLookAheadSpanEnd s
  | .blankStretch => Sys2Proof.Machine.execBlankStretch s
  | .laneEndReached outcomes => Sys2Proof.Machine.execLaneEndReached outcomes s
  | .segmentWritten => Sys2Proof.Machine.execSegmentWritten s
  | .rewriteWritten => Sys2Proof.Machine.execRewriteWritten s
  | .verifyOutcome segment attempt failed => Sys2Proof.Machine.execVerifyOutcome segment attempt failed s
  | .rewriteOutcome segment stripe passed => Sys2Proof.Machine.execRewriteOutcome segment stripe passed s
  | .holdTimerExpiry row => Sys2Proof.Machine.execHoldTimerExpiry row s
  | .intervalTimerExpiry => Sys2Proof.Machine.execIntervalTimerExpiry s
  | .cleaningTimerExpiry => Sys2Proof.Machine.execCleaningTimerExpiry s
  | .rateReview => Sys2Proof.Machine.execRateReview s
  | .tagTransactionDone success => Sys2Proof.Machine.execTagTransactionDone success s
  | .tagTransactionTimeout => Sys2Proof.Machine.execTagTransactionTimeout s
  | .tagReaderGrant => Sys2Proof.Machine.execTagReaderGrant s
  | .recordPacked => Sys2Proof.Machine.execRecordPacked s
  | .packingEngineTakesRecord => Sys2Proof.Machine.execPackingEngineTakesRecord s
  | .expansionEngineTakesRequest => Sys2Proof.Machine.execExpansionEngineTakesRequest s
  | .recordExpanded => Sys2Proof.Machine.execRecordExpanded s
  | .decodeFault => Sys2Proof.Machine.execDecodeFault s
  | .slotRequestGranted => Sys2Proof.Machine.execSlotRequestGranted s
  | .readSlotWaitEnds p => Sys2Proof.Machine.execReadSlotWaitEnds p s
  | .commandTakenIntoService p => Sys2Proof.Machine.execCommandTakenIntoService p s
  | .closingWaitEnds p => Sys2Proof.Machine.execClosingWaitEnds p s
  | .syncComplete p => Sys2Proof.Machine.execSyncComplete p s
  | .verifiedAck p => Sys2Proof.Machine.execVerifiedAck p s
  | .turnGrant => Sys2Proof.Machine.execTurnGrant s
  | .leavingProcedureDone => Sys2Proof.Machine.execLeavingProcedureDone s
  | .backhitchWaitEnd => Sys2Proof.Machine.execBackhitchWaitEnd s
  | .drainingEnd => Sys2Proof.Machine.execDrainingEnd s
  | .breakEnd => Sys2Proof.Machine.execBreakEnd s
  | .hostFrameSent p => Sys2Proof.Machine.execHostFrameSent p s

end Sys2Proof.Machine
end

