-- ==== Sys2Proof/Safety.lean ====
section
/-! DEFINITION. What claims about runs are stated in: the moments at which a step brings nothing about but its command's own effect, the bounds that the spec gives the part's counts, and the agreement of the Settings Store with what it keeps. -/

namespace Sys2Proof.Machine

/-- Whether the turn in progress is a Verify Scan's. -/
def State.scanTurn (s : State) : Bool :=
  match s.job with
  | some (.verify _) => true
  | _ => false

/-- Whether a drain turn waits after a backhitch or runs out its window (R130). -/
def State.waitingTurn (s : State) : Bool :=
  match s.job with
  | some (.drain ..) => s.msc.activity == .backhitched || s.msc.activity == .runningOut
  | _ => false

/-- A calm moment: no Port Cut waits for a segment (R58), no Verify Scan has the transport (R155), the part is not in Standby (R29), and no drain turn waits after a backhitch or runs out its window (R66). A command then brings about nothing beyond its own rule. -/
def State.Calm (s : State) : Prop :=
  s.ports.a.cut = false ∧ s.ports.b.cut = false ∧ s.scanTurn = false ∧ s.lsq.state ≠ .standby ∧ s.waitingTurn = false

/-- A settled moment: no Port Cut can finish (R58), no Verify Scan's turn meets a change of the work against it (R155), in Standby no work is eligible (R29), and no waiting drain turn has other work against it (R66). Every calm moment is one. -/
structure State.Settled (s : State) : Prop where
  cut : ∀ p, (s.port p).cut = true → s.job = some (.verify p)
  scan : ∀ p, s.job = some (.verify p) → s.scanOutdone p = false ∧ s.scanRelieved p = false
  standby : s.lsq.state = .standby → s.portWork .a = none ∧ s.portWork .b = none
  drain : ∀ r p, s.job = some (.drain r p) → s.waitingTurn = true → s.otherEligible p = false

/-- A setting in its range (R192). -/
structure Settings.InRange (t : Settings) : Prop where
  ewReserve : 100 ≤ t.ewReserve ∧ t.ewReserve ≤ 3000
  appendHold : 1 ≤ t.appendHold ∧ t.appendHold ≤ 255
  checkpointInterval : t.checkpointInterval = 0 ∨ (10 ≤ t.checkpointInterval ∧ t.checkpointInterval ≤ 3600)
  cleaningInterval : 50 ≤ t.cleaningInterval ∧ t.cleaningInterval ≤ 2000
  qualityThreshold : 5 ≤ t.qualityThreshold ∧ t.qualityThreshold ≤ 500
  divisor : 4 ≤ t.divisor ∧ t.divisor ≤ 255

/-- A divisor in its range (R185). -/
def divisorOk (n : Nat) : Prop := 4 ≤ n ∧ n ≤ 255

/-- The bounds of the spec on what the part holds, and the agreement of the Settings Store with the live values it keeps. -/
structure State.Sound (s : State) : Prop where
  /-- 32 segment slots (R99). -/
  slots : s.sbm.slots.length = 32
  /-- The write side holds at most 24 slots (R100). -/
  writeSide : writeSideCount s.sbm.slots ≤ 24
  /-- A port's read-ahead holds at most 8 slots (R100). -/
  readSide : ∀ p, readSideCount s.sbm.slots p ≤ 8
  /-- A port holds at most one session row (R51). -/
  session : ∀ p r q, s.holds p r = true → s.holds p q = true → r = q
  /-- At most four waiting commands at a port (R39). -/
  waiting : s.ports.a.waiting.length ≤ 4 ∧ s.ports.b.waiting.length ≤ 4
  /-- Seven grant entries at a port (R47). -/
  sectors : s.ports.a.sector.length = 7 ∧ s.ports.b.sector.length = 7
  /-- The burst count, 0 to 8 (R61). -/
  burst : s.msc.burst ≤ 8
  /-- The thread retry count, 0 to 2 (R20). -/
  retries : s.lsq.retries ≤ 2
  /-- The backhitch count of the rate selector, 0 or 1 (R136). -/
  backhitches : s.wvu.rate.backhitches ≤ 1
  /-- The head meter stops at its maximum (R170, R171). -/
  meter : s.hcm.meter ≤ meterMax
  /-- At most three records of quality history (R174). -/
  history : s.hcm.history.length ≤ 3
  /-- The settings held are in range (R192). -/
  settings : s.sst.settings.InRange
  /-- The divisor in effect is in range (R185). -/
  divisor : divisorOk s.lp.divisor
  /-- A divisor that awaits its response is in range (R185, R192). -/
  newDivisors : ∀ d ∈ s.lp.newDivisors, divisorOk d.value
  /-- The stored meter is behind the live one by less than a kilometre (R172). -/
  meterCopy : s.hcm.meter < s.sst.meter + 100000
  /-- The stored meter is within the meter's range. -/
  meterStored : s.sst.meter ≤ meterMax
  /-- The clean call's level and reason are stored as they stand (R172). -/
  cleanCopy : s.sst.level = s.hcm.level ∧ s.sst.reason = s.hcm.reason
  /-- The grant sectors are stored as they stand (R47). -/
  grantCopy : s.sst.grants.a = s.ports.a.sector ∧ s.sst.grants.b = s.ports.b.sector

/-- What the tokens of the packing code make, newest byte first: each literal its byte, each copy the bytes from its distance back, one by one (R86). -/
def expandTokens : List Token → List Byte → List Byte
  | [], out => out
  | .literal b :: rest, out => expandTokens rest (b :: out)
  | .copy d n :: rest, out => expandTokens rest (copyRun out d n)

/-! ## Host commands -/

/-- What a host command frame is to the part (spec/11 11.4, 11.6): its port, code, tag, and the command it spells; none for a parameter outside its range. -/
structure HostArrival where
  port : Port
  code : Nat
  tag : Nat
  cmd : Option HostCmd
deriving DecidableEq, Repr

/-- The table of host commands, with the ranges of their parameters (spec/11 11.4, 11.6). -/
def hostArrival : Instr → Option HostArrival
  | .writeRecord p tag n => some ⟨p, 1, tag, if 1 ≤ n ∧ n ≤ 1048576 then some (.writeRecord n) else none⟩
  | .writeMarks p tag n f => some ⟨p, 2, tag, if 1 ≤ n ∧ n ≤ 255 ∧ f ≤ 1 then some (.writeMarks n (f == 1)) else none⟩
  | .readRecord p tag n => some ⟨p, 3, tag, if n ≤ 1048576 then some (.readRecord n) else none⟩
  | .verifyScan p tag => some ⟨p, 4, tag, some .verifyScan⟩
  | .locate p tag l o => some ⟨p, 5, tag, if 1 ≤ l ∧ l ≤ 7 ∧ o ≤ 4294967295 then some (.locate l o) else none⟩
  | .spaceObjects p tag d n => some ⟨p, 6, tag, if d ≤ 1 ∧ n ≤ 16777215 then some (.spaceObjects (d == 1) n) else none⟩
  | .spaceMarks p tag d n => some ⟨p, 7, tag, if d ≤ 1 ∧ n ≤ 16777215 then some (.spaceMarks (d == 1) n) else none⟩
  | .seekEnd p tag => some ⟨p, 8, tag, some .seekEnd⟩
  | .rewind p tag l => some ⟨p, 9, tag, if ∀ k, l = some k → 1 ≤ k ∧ k ≤ 7 then some (.rewind l) else none⟩
  | .truncate p tag => some ⟨p, 10, tag, some .truncate⟩
  | .sync p tag => some ⟨p, 11, tag, some .sync⟩
  | .park p tag => some ⟨p, 12, tag, some .park⟩
  | .unloadRequest p tag => some ⟨p, 13, tag, some .unloadRequest⟩
  | .setPortOptions p tag c m r =>
    some ⟨p, 14, tag, if c ≤ 1 ∧ m ≤ 1 ∧ r ≤ 1 then some (.setPortOptions ⟨c == 1, m == 1, r == 1⟩) else none⟩
  | _ => none

/-- The code of a library command's frame, and whether its parameters are in range (spec/11 11.5, 11.6): the commands of which one may be outstanding. -/
def libraryArrival : Instr → Option (Nat × Bool)
  | .load => some (1, true)
  | .unload => some (2, true)
  | .portCut n => some (3, decide (n ≤ 1))
  | .grant p l r d => some (4, decide (p ≤ 1 ∧ 1 ≤ l ∧ l ≤ 7 ∧ r ≤ 2 ∧ (r = 0 ∨ d ≤ 3)))
  | .layOutPartitions l => some (5, decide (1 ≤ l.length ∧ l.length ≤ 4 ∧ ∀ n ∈ l, n ≤ 255))
  | .lockPartition d v => some (6, decide (d ≤ 3 ∧ v ≤ 1))
  | .readAttribute n => some (7, decide (n ≤ 255))
  | .writeAttribute n b => some (8, decide (n ≤ 255 ∧ b.length ≤ 252))
  | .setSetting n v => some (9, decide (1 ≤ n ∧ n ≤ 6 ∧ v ≤ 65535))
  | _ => none

namespace State

/-- The port free to take a host command into service at its arrival, with the load state and attention checks passed (R39, R41). -/
structure Serves (s : State) (p : Port) : Prop where
  line : s.resetLine = false
  cut : (s.port p).cut = false
  idle : (s.port p).inService = none
  waiting : (s.port p).waiting = []
  layOut : s.layOutActive = false
  load : loadCheck s.lsq.state = none
  attention : (s.port p).attention.isEmpty = true

/-- A logical partition that resolves to a partition of the layout (R48). -/
def Resolves (s : State) (p : Port) (l : Nat) (g : Grant) (d : PartDir) : Prop :=
  s.grantEntry p l = some g ∧ s.partDir g.part = some d

/-- `s` with a command in service at port `p`. -/
def serving (s : State) (p : Port) (c : InService) : State := s.setPort p { s.port p with inService := some c }

/-- A response at the end of port `p`'s transmit queue, with the position it carries (R43, R184). -/
def responded (s : State) (p : Port) (tag : Nat) (result : HostResult) (ew : Bool) (detail : Detail) : State :=
  s.setPort p { s.port p with tx := (s.port p).tx ++ [.response tag result ew (s.context p) detail] }

/-- The outcome record of a command that ends with port `p`'s context as it stands (R43). -/
def outcomeOf (s : State) (p : Port) (code tag : Nat) (result : HostResult) (detail : Detail) : OutcomeRecord :=
  { command := code, tag := tag, result := result, detail := outcomeDetail result detail,
    position := (s.context p).map (fun c => { logical := c.logical, object := c.object, atEnd := c.atEnd }), ew := s.contextEw p }

/-- A command refused at its arrival: the response and the outcome record together (R39, R44). -/
def refusedAt (s : State) (p : Port) (code tag : Nat) (result : HostResult) (ew : Bool) : State :=
  s.setPort p
    { s.port p with
      tx := (s.port p).tx ++ [.response tag result ew (s.context p) .none]
      outcome := some (s.outcomeOf p code tag result .none) }

/-- A command of port `p` ended in service: the response and the outcome record together, the place and any credit emptied (R42). -/
def ended (s : State) (p : Port) (code tag : Nat) (result : HostResult) (ew : Bool) (detail : Detail) : State :=
  s.setPort p
    { s.port p with
      tx := (s.port p).tx ++ [.response tag result ew (s.context p) detail]
      outcome := some (s.outcomeOf p code tag result detail)
      inService := none
      credit := none }

/-- A command in service at port `p` that has resolved to a grant: what it keeps from its taking (R41, R48, R89, R131). -/
def inHand (s : State) (p : Port) (tag : Nat) (c : HostCmd) (g : Grant) (x : Phase) : InService :=
  { tag := tag, cmd := c, part := some g.part, right := some g.right, start := s.context p, compress := (s.port p).options.compression,
    verified := (s.port p).options.verified, lost := false, phase := x }

/-- A command in service at port `p` that uses no partition (R41, R48). -/
def inHandAlone (s : State) (p : Port) (tag : Nat) (c : HostCmd) (x : Phase) : InService :=
  { tag := tag, cmd := c, part := none, right := none, start := none, compress := (s.port p).options.compression,
    verified := (s.port p).options.verified, lost := false, phase := x }

/-- A movement of the slots given leaves the store's copy of the meter and the clean call as they are (R172, R175). -/
def MeterQuiet (s : State) (slots : Nat) : Prop :=
  meterAfter s.hcm.meter slots < s.sst.meter + 100000 ∧ meterAfter s.hcm.meter slots < s.sst.settings.cleaningInterval * 100000

/-- The turn in progress is a drain turn of row `r` for port `p` with `n` segments written, which is not stopped and leaves no other write point (R61, R66). -/
def Draining (s : State) (r : Part) (p : Port) (n : Nat) : Prop :=
  s.msc.turn = some { job := .drain r p, written := n, stopping := false, leaving := none }

/-- What a session's loss leaves (R56, R129), of the row `r` that port `p` holds at `s`: the row Failed with its fault, which its holder's attention set and the write-fault flag take; its segments gone from the verify window, the rewrite list, the completion list and the slots, its live count kept; the directory lowered to the first lost object where it stood above, which the reads of objects cut away note; every context above the committed end moved to it; and the holder's waiting Sync or write ended WRITE_FAULT. -/
structure SessionLost (s : State) (r : Part) (p : Port) (reason : LossReason) (t : State) : Prop where
  row : (t.row r).state = .failed ∧ (t.row r).holder = some p ∧ (t.row r).holdTimer = none ∧ (t.row r).unverified = 0
  fault : (t.row r).fault = some { part := r, firstLost := s.firstLost r, reason := reason }
  attention : (t.port p).attention = (s.port p).attention.addFault { part := r, firstLost := s.firstLost r, reason := reason }
  flag : t.lsq.writeFault = true
  window : t.wvu.window = s.wvu.window.filter (fun e => e.row != r)
  rewrites : t.wvu.rewrites = s.wvu.rewrites.filter (fun e => e.row != r)
  completion : t.wvu.completion = s.wvu.completion.filter (fun e => e.row != r)
  slots : ∀ x ∈ t.sbm.slots, x.ofSession r = false
  live : t.wvu.live = s.wvu.live
  objects : t.committedObjects r = min (s.committedObjects r) (s.firstLost r)
  reads : t.rdu = if s.firstLost r < s.committedObjects r then (s.noteFallen r (s.firstLost r)).rdu else s.rdu
  contexts : ∀ q c, s.context q = some c → s.contextIn q r = true → t.committedObjects r < c.object →
    t.context q = some { c with object := t.committedObjects r, marks := t.committedMarks r, atEnd := true }
  command : ∀ c, (s.port p).inService = some c → (c.phase = .awaitSync r ∨ ∃ n, c.phase = .awaitVerify r n ∧ s.committedSegments r ≤ n) →
    (t.port p).inService = none ∧ (t.port p).outcome.map (fun o => (o.command, o.tag, o.result)) = some (cmdCode c.cmd, c.tag, .writeFault)

/-- The library command frame taken: no command is outstanding, the response of the command before has been sent, and the reset line is not asserted (R189, R194). -/
structure TakesLibrary (s : State) : Prop where
  line : s.resetLine = false
  free : s.lp.outstanding = none
  sent : s.lp.unsent = none

/-- A library response at the end of the Library Port's queue (R189): a refusal at arrival, a query's answer, or FRAME_REJECTED. -/
def libraryAnswered (s : State) (code : Nat) (result : LibResult) (detail : LibDetail) : State :=
  s.setLp { s.lp with receiver := .hunting, tx := s.lp.tx ++ [{ result := result, code := code, detail := detail }] }

/-- The response of a command that has been taken, at the end of the Library Port's queue: the command stays outstanding until it has been sent (R189). -/
def libraryEnded (s : State) (code : Nat) (result : LibResult) (detail : LibDetail) : State :=
  s.setLp
    { s.lp with
      receiver := .hunting, tx := s.lp.tx ++ [{ result := result, code := code, detail := detail }], unsent := some (s.lp.tx.length + 1) }

end State

end Sys2Proof.Machine
end

