-- ==== Sys2Proof/Certificates/Slice0/Obligations.lean ====
section
/-! DEFINITION. The statements about this model, for the provers. -/

open Sys2Proof Sys2Proof.Machine

/-! ## The queue, the bounds and the whole part -/

/-- One step takes the command at the front of the queue and carries it out on the state with the queue's rest. That the commands of every party wait in one queue, first in first out, is the model's own choice (log entry 2): R39 speaks of each port's own queue of commands. -/
def Obligations.StepTakesTheFront : Prop :=
  ∀ (c : Instr) (rest : List Instr) (s : State), s.pending = c :: rest → step s = exec c { s with pending := rest }

/-- No command stops the part, and none but the step itself touches the queue: every command answers a next state with the queue as it was. That the rows which stand for the part's own moments and for the mechanism answer a next state at any moment, and that one queue holds the commands of every party, are the model's own choices (log entries 3 and 2). -/
def Obligations.EveryCommandAnswers : Prop :=
  ∀ (i : Instr) (s : State), ∃ t, exec i s = .next t ∧ t.pending = s.pending

/-- The bounds of the spec on what the part holds (R20, R39, R47, R61, R99, R136, R170, R174, R185, R192), at most 24 slots on the write side and 8 on each port's read side (R100), at most one session at a port (R51; a row has one holder), and the agreement of the Settings Store with the live values it keeps (R47, R172), are kept by every step. -/
def Obligations.StepsKeepTheBounds : Prop :=
  ∀ s t : State, s.Sound → step s = .next t → t.Sound

/-- The bounds hold after reset. -/
def Obligations.ResetIsSound : Prop := State.reset.Sound

/-- The clean call never falls but at the cleaning timer's expiry in a cleaning run that runs, which completes it (R176, R180). -/
def Obligations.CleanCallNeverFalls : Prop :=
  ∀ (i : Instr) (s t : State), s.Sound → exec i s = .next t →
    (s.hcm.level = .required → t.hcm.level = .required) ∧ (s.hcm.level = .advised → t.hcm.level ≠ .none) ∨
    (i = .cleaningTimerExpiry ∧ ∃ passes timer, s.hcm.run = .running passes timer)

/-- What only its own command changes: the settings SET_SETTING (R192), the grant entries GRANT (R47, R49), the tag in the drive a tag transaction that succeeds, an insertion, a removal or a power-on (R9, R13, R21). -/
def Obligations.OnlyTheirCommandsChange : Prop :=
  ∀ (i : Instr) (s t : State), s.Sound → exec i s = .next t →
    ((∀ n v, i ≠ .setSetting n v) → t.sst.settings = s.sst.settings) ∧
    ((∀ p l r d, i ≠ .grant p l r d) → t.sst.grants = s.sst.grants ∧ ∀ p, (t.port p).sector = (s.port p).sector) ∧
    (i ≠ .tagTransactionDone true → (∀ g b, i ≠ .cartridgeInserted g b) → i ≠ .cartridgeRemoved → (∀ c h b, i ≠ .powerOn c h b) →
      t.cart.tag = s.cart.tag)

/-! ## Host commands at arrival -/

/-- A host command frame is judged in the order of R39: a parameter out of range, a tag in use, a full queue, and, before the queue is looked at, a Port Cut in progress, under which it is answered ABORTED_BY_CUT without an outcome record (R59); every other refusal writes the outcome record with its response (R44). The response to a Sync carries the EW flag of the partition of the port's session, or, without one, of its context's (R120). A frame that passes is appended to the queue when the port has other work (R41) or a Lay Out Partitions is pending or in flight (R16), and nothing else changes. That the response to any other command refused at its arrival carries a false EW flag, a write's or a Truncate's too, which has resolved no partition yet, is the model's own choice (log entry 79). -/
def Obligations.HostArrivalsInOrder : Prop :=
  ∀ (i : Instr) (p : Port) (code tag : Nat) (c : Option HostCmd) (s : State),
    hostArrival i = some ⟨p, code, tag, c⟩ → s.Settled → s.resetLine = false →
    let ew := code == 11 && (match s.sessionOf p with | some r => s.ew r | none => s.contextEw p)
    let used := s.tagInUse p tag
    match c with
    | none => exec i s = .next (s.refusedAt p code tag .formatFault ew)
    | some x =>
      if used then exec i s = .next (s.refusedAt p code tag .tagInUse ew)
      else if (s.port p).cut then exec i s = .next (s.responded p tag .abortedByCut ew .none)
      else if 4 ≤ (s.port p).waiting.length then exec i s = .next (s.refusedAt p code tag .queueFull ew)
      else
        (s.port p).inService.isSome || !(s.port p).waiting.isEmpty || s.layOutActive →
          exec i s = .next (s.setPort p { s.port p with waiting := (s.port p).waiting ++ [{ tag := tag, cmd := x }] })

/-- While the reset line is asserted every frame on the three links is discarded unanswered, and an assertion of a line already asserted changes nothing (R194). -/
def Obligations.AssertedLineDiscards : Prop :=
  ∀ (i : Instr) (s : State), s.resetLine = true → s.Settled →
    ((hostArrival i).isSome = true ∨ (∃ p g, i = .queryOutcome p g) ∨ (∃ p g n, i = .queryDrive p g n) ∨
      (∃ p g f b, i = .dataFrame p g f b) ∨ i = .load ∨ i = .unload ∨ (∃ n, i = .portCut n) ∨ (∃ p l r d, i = .grant p l r d) ∨
      (∃ l, i = .layOutPartitions l) ∨ (∃ d v, i = .lockPartition d v) ∨ (∃ n, i = .readAttribute n) ∨ (∃ n b, i = .writeAttribute n b) ∨
      (∃ n v, i = .setSetting n v) ∨ (∃ g p, i = .libraryQueryDrive g p) ∨ i = .libraryFrameDamaged ∨ i = .deviceReset ∨ i = .resetLine) →
    exec i s = .next s

/-! ## Queries and the host links -/

/-- QUERY_OUTCOME is answered at arrival with the port's outcome record as it stands, or refused TAG_IN_USE, and changes nothing but the port's transmit queue (R39, R40). HOST_FRAME_DAMAGED discards the frame being built and answers nothing (R182); HOST_FRAME_SENT takes the frame at the head of the port's transmit queue away (R184), and where no record is in the expansion engine nothing else follows. That a refused query carries no position and a false EW flag is read from R40 and R44 (DEDUCED, log entry 49). -/
def Obligations.HostLinksAreServed : Prop :=
  (∀ (p : Port) (tag : Nat) (s : State), s.resetLine = false →
     exec (.queryOutcome p tag) s = .next (s.setPort p { s.port p with tx := (s.port p).tx ++
       [if s.tagInUse p tag then .response tag .tagInUse false none .none else .outcome tag (s.port p).outcome] })) ∧
  (∀ (p : Port) (s : State),
     exec (.hostFrameDamaged p) s = .next (s.setPort p { s.port p with rx := [] }) ∧
     (s.rcx.expander = none → exec (.hostFrameSent p) s = .next (s.setPort p { s.port p with tx := (s.port p).tx.drop 1 })) ∧
     ∃ t, exec (.hostFrameSent p) s = .next t ∧
       t = { s with ports := t.ports, rcx := { s.rcx with expander := t.rcx.expander } } ∧
       (∀ f, (s.port p).tx = [f] → ∀ e, s.rcx.expander = some e → e.req.port = p → e.req.limit ≤ 8192 →
         t.port p = { s.port p with tx := [] }))

/-- QUERY_DRIVE from a host is answered at arrival with the group as it stands: Drive, Partitions, the port's own Port group without its outcome record, Buffer, Head or Settings; any other group is refused FORMAT_FAULT, the Library group among them, and nothing but the port's transmit queue changes (R39, R40, R191). That the group is judged before the tag is the model's own choice (log entry 33), and that a refused query carries no position and no EW flag is read from R40 and R44 (DEDUCED, log entry 49). That the Drive group reports no cartridge type for a data cartridge whose directory copy is absent is the model's own choice (log entry 57). -/
def Obligations.QueryDriveAnswered : Prop :=
  ∀ (p : Port) (tag group : Nat) (s : State), s.resetLine = false →
    let sends := fun (f : HostFrame) => exec (.queryDrive p tag group) s = .next (s.setPort p { s.port p with tx := (s.port p).tx ++ [f] })
    (group = 0 ∨ 7 ≤ group → sends (.response tag .formatFault false none .none)) ∧
    (1 ≤ group ∧ group ≤ 6 → s.tagInUse p tag = true → sends (.response tag .tagInUse false none .none)) ∧
    (s.tagInUse p tag = false →
      (group = 1 → sends (.report tag (.drive
        { state := s.lsq.state, kind := s.lsq.kind, type := if s.lsq.kind = .cleaning then some .cleaning else s.dtc.copy.map (·.type)
          writeTab := s.cart.writeTab, lane := s.msc.head.lane, position := s.msc.head.coord / 16, motion := s.msc.motion
          turn := s.msc.turn.map (fun t => (turnKind t.job, jobPort t.job)), level := s.wvu.rate.level, window := s.wvu.window.length
          rewritesDue := s.wvu.rewrites.countP (·.due), current := s.dtc.copy.map (·.current), atRisk := s.dtc.atRisk
          checkpointPending := s.dtc.pendCheckpoint.isSome, checkpointInFlight := s.checkpointInFlight, recovering := s.dtc.recovery.isSome }))) ∧
      (group = 2 → sends (.report tag (.partitions (allParts.filterMap (fun r => (s.partDir r).map (fun d =>
        { segments := d.segments, objects := d.objects, marks := d.marks, used := d.used, locked := d.locked
          remaining := s.remaining r, ew := s.ew r
          row := { holder := (s.row r).holder, state := (s.row r).state, firstObject := (s.row r).firstObject
                   admitted := (s.row r).admitted, unverified := (s.row r).unverified } })))))) ∧
      (group = 3 → sends (.report tag (.port
        { inService := (s.port p).inService.isSome, waiting := (s.port p).waiting.length, options := (s.port p).options
          intake := intakeForm (s.rcx.intake.get p), read := (s.rdu.reads.get p).map (·.phase), fill := s.rdu.fills.get p
          context := s.context p, attention := (s.port p).attention, readSlots := readSideCount s.sbm.slots p, outcome := none }))) ∧
      (group = 4 → sends (.report tag (.buffer s.reportBuffer))) ∧
      (group = 5 → sends (.report tag (.head
        { meter := s.hcm.meter, level := s.hcm.level, reason := s.hcm.reason, cleaningInterval := s.sst.settings.cleaningInterval
          qualityThreshold := s.sst.settings.qualityThreshold
          history := s.hcm.history.map (fun r => (r, 1000 * r.errors / r.processed)), openRecord := s.hcm.openRecord
          verified := s.hcm.verified, extraAttempts := s.hcm.extraAttempts, rewrites := s.hcm.rewrites, run := s.hcm.run }))) ∧
      (group = 6 → sends (.report tag (.settings s.sst.settings))))

/-! ## The library's frames -/

/-- A library command frame is judged in the order of R189: a parameter out of range FORMAT_FAULT, then, while another command is outstanding, or its response, which reports a new divisor that has not taken effect, is unsent (R185), BUSY; neither disturbs the outstanding command or anything else but the unsent responses and the receiver, which is hunting again. Any other unsent response of a taken command leaves the next command either BUSY or taken with that response, and those before it, sent: which of the two is a free value, since no row says when a response has been sent (DEDUCED, log entry 23). The library's tag commands are refused by load state as R14, R16 and R18 state, a Lock Partition of a partition that the loaded layout does not have FORMAT_FAULT (R18), a Lay Out Partitions also BUSY while a session row is in use or a port has a command in service (R16), and nothing else changes. That a setting id out of range is such a parameter, refused FORMAT_FAULT before BUSY, is the model's own choice (log entry 33). -/
def Obligations.LibraryArrivalsAreJudged : Prop :=
  (∀ (i : Instr) (code : Nat) (ok : Bool) (s : State), libraryArrival i = some (code, ok) → s.Settled → s.resetLine = false →
     (ok = false → exec i s = .next (s.libraryAnswered code .formatFault .none)) ∧
     (ok = true → s.lp.outstanding.isSome = true → exec i s = .next (s.libraryAnswered code .busy .none)) ∧
     (ok = true → s.lp.unsent.isSome = true → s.lp.newDivisors ≠ [] → exec i s = .next (s.libraryAnswered code .busy .none)) ∧
     (∀ n, ok = true → s.lp.outstanding = none → s.lp.unsent = some n → s.lp.newDivisors = [] →
       exec i s = .next (({ s with free := s.free + 1 } : State).libraryAnswered code .busy .none) ∨
       exec i s = exec i { s with free := s.free + 1, lp := { s.lp with tx := s.lp.tx.drop n, unsent := none } })) ∧
  (∀ (s : State), s.TakesLibrary → s.Settled →
     (∀ n, n ≤ 255 → s.lsq.state = .empty → exec (.readAttribute n) s = .next (s.libraryEnded 7 .noCartridge .none)) ∧
     (∀ n, n ≤ 255 → s.lsq.state = .seated ∨ s.lsq.state = .tagRead ∨ s.lsq.state = .ejected →
       exec (.readAttribute n) s = .next (s.libraryEnded 7 .notReady .none)) ∧
     (∀ n b, n ≤ 255 → b.length ≤ 252 → s.lsq.state = .empty → exec (.writeAttribute n b) s = .next (s.libraryEnded 8 .noCartridge .none)) ∧
     (∀ n b, n ≤ 255 → b.length ≤ 252 → 64 < b.length → s.lsq.state ≠ .empty →
       exec (.writeAttribute n b) s = .next (s.libraryEnded 8 .formatFault .none)) ∧
     (∀ n b, n ≤ 255 → b.length ≤ 64 → s.lsq.state = .seated ∨ s.lsq.state = .tagRead ∨ s.lsq.state = .ejected →
       exec (.writeAttribute n b) s = .next (s.libraryEnded 8 .notReady .none)) ∧
     (∀ n, 33 ≤ n → n ≤ 255 → s.lsq.state ≠ .empty → s.lsq.state ≠ .seated → s.lsq.state ≠ .tagRead → s.lsq.state ≠ .ejected →
       exec (.readAttribute n) s = .next (s.libraryEnded 7 .formatFault .none) ∧
       ∀ b, b.length ≤ 64 → exec (.writeAttribute n b) s = .next (s.libraryEnded 8 .formatFault .none)) ∧
     (∀ d v, d ≤ 3 → v ≤ 1 → s.lsq.state = .empty → exec (.lockPartition d v) s = .next (s.libraryEnded 6 .noCartridge .none)) ∧
     (∀ d v, d ≤ 3 → v ≤ 1 → s.lsq.state ≠ .empty → s.lsq.state ≠ .ready → s.lsq.state ≠ .standby →
       exec (.lockPartition d v) s = .next (s.libraryEnded 6 .notReady .none)) ∧
     (∀ d v, d ≤ 3 → v ≤ 1 → s.lsq.state = .ready ∨ s.lsq.state = .standby → s.partDir (partNumber d) = none →
       exec (.lockPartition d v) s = .next (s.libraryEnded 6 .formatFault .none)) ∧
     (∀ lanes, 1 ≤ lanes.length → lanes.length ≤ 4 → (∀ n ∈ lanes, n ≤ 255) →
       (s.lsq.state = .empty → exec (.layOutPartitions lanes) s = .next (s.libraryEnded 5 .noCartridge .none)) ∧
       (s.lsq.state ≠ .empty → s.lsq.state ≠ .ready → s.lsq.state ≠ .standby →
         exec (.layOutPartitions lanes) s = .next (s.libraryEnded 5 .notReady .none)) ∧
       (∀ d, s.lsq.state = .ready ∨ s.lsq.state = .standby → s.dtc.copy = some d → layoutValid d.type lanes = false →
         exec (.layOutPartitions lanes) s = .next (s.libraryEnded 5 .formatFault .none)) ∧
       (∀ d r, s.lsq.state = .ready ∨ s.lsq.state = .standby → s.dtc.copy = some d → layoutValid d.type lanes = true → (s.row r).state ≠ .none →
         exec (.layOutPartitions lanes) s = .next (s.libraryEnded 5 .busy .none)) ∧
       (∀ d p, s.lsq.state = .ready ∨ s.lsq.state = .standby → s.dtc.copy = some d → layoutValid d.type lanes = true →
         (s.port p).inService.isSome = true → exec (.layOutPartitions lanes) s = .next (s.libraryEnded 5 .busy .none))))

/-- LIBRARY_QUERY_DRIVE is answered OK at once with the group, also while a command is outstanding; the answer of the Library group empties the attention summary and the reset cause set, every other answer leaves what it reports; a group or port out of range is refused FORMAT_FAULT (R189, R191, R193). -/
def Obligations.LibraryQueryAnswered : Prop :=
  ∀ (group n : Nat) (s : State), s.resetLine = false →
    (group = 0 ∨ 8 ≤ group ∨ 2 ≤ n → exec (.libraryQueryDrive group n) s = .next (s.libraryAnswered 10 .formatFault .none)) ∧
    (∀ p, (p = .a ∧ n = 0) ∨ (p = .b ∧ n = 1) →
      (group = 7 → exec (.libraryQueryDrive group n) s =
        .next { s with
          lp := { s.lp with receiver := .hunting, summary := Summary.empty,
                            tx := s.lp.tx ++ [{ result := .ok, code := 10, detail := .report (.library s.lp.summary s.sst.causes) }] }
          sst := { s.sst with causes := Causes.empty } }) ∧
      (1 ≤ group ∧ group ≤ 6 → ∃ r, s.report group p true = some r ∧
        exec (.libraryQueryDrive group n) s = .next (s.libraryAnswered 10 .ok (.report r))) ∧
      (group = 3 → exec (.libraryQueryDrive group n) s = .next (s.libraryAnswered 10 .ok (.report (.port
        { inService := (s.port p).inService.isSome, waiting := (s.port p).waiting.length, options := (s.port p).options
          intake := intakeForm (s.rcx.intake.get p), read := (s.rdu.reads.get p).map (·.phase), fill := s.rdu.fills.get p
          context := s.context p, attention := (s.port p).attention, readSlots := readSideCount s.sbm.slots p
          outcome := some (s.port p).outcome })))))

/-- The events of the Library Line: LIBRARY_FRAME_DAMAGED is answered FRAME_REJECTED with code 0 (R186); BREAK drops the frame being assembled, and takes a part in Standby to Waking (R187, R29); BREAK_END leaves the receiver hunting; LIBRARY_LINE_RESET discards the unsent responses, abandons a waiting access and frees the one-outstanding count (R187); OUTGOING_BREAK sends the break that was due (R188); NEW_DIVISOR_EFFECTIVE makes the divisor effective whose response has been sent first of those that wait (R185), and a command whose response is among those sent is outstanding no longer (R189). Nothing else changes. That this event takes the sent responses out of the queue, that it is the sending until which the Set Setting of the divisor stays outstanding, and that a line reset forgets a divisor not yet effective, are read from R185, R187 and R189 (DEDUCED, log entry 23); that it changes nothing while no divisor waits is the model's own choice (log entry 3). -/
def Obligations.LibraryLineEvents : Prop :=
  ∀ (s : State),
    (s.resetLine = false → exec .libraryFrameDamaged s = .next (s.libraryAnswered 0 .frameRejected .none)) ∧
    exec .lineBreak s = .next { s with
      lp := { s.lp with receiver := .inBreak }
      lsq := { s.lsq with state := if s.lsq.state = .standby then .waking else s.lsq.state } } ∧
    exec .breakEnd s = .next { s with lp := { s.lp with receiver := .hunting } } ∧
    exec .libraryLineReset s = .next { s with
      lp := { s.lp with receiver := .hunting, tx := [], outstanding := none, unsent := none, newDivisors := [] }
      dtc := { s.dtc with pendLibrary := none } } ∧
    exec .outgoingBreak s = .next { s with lp := { s.lp with breakDue := false } } ∧
    (s.lp.newDivisors = [] → exec .newDivisorEffective s = .next s) ∧
    (∀ d rest, s.lp.newDivisors = d :: rest → exec .newDivisorEffective s = .next
      { s with lp := { s.lp with
          divisor := d.value, tx := s.lp.tx.drop d.ahead, newDivisors := rest.map (fun e => { e with ahead := e.ahead - d.ahead })
          unsent := match s.lp.unsent with | none => none | some n => if n ≤ d.ahead then none else some (n - d.ahead) } })

/-- SET_SETTING stores the value clamped to the setting's range and ends OK with the value held (R192): the early-warning reserve, append hold, quality threshold and divisor change nothing else at once but, for the divisor, the one that awaits the sending of the response, with those before it (R185), until which the command stays outstanding (R189; read so, DEDUCED, log entry 23); the cleaning interval is judged against the meter at once (R177), and the checkpoint interval makes a checkpoint request and restarts or stops the timer (R163). -/
def Obligations.SettingsAreClamped : Prop :=
  ∀ (v : Nat) (s : State), s.TakesLibrary → s.Settled → v ≤ 65535 →
    let held := fun (n : Nat) => s.libraryEnded 9 .ok (.value n)
    let cut := fun (lo hi : Nat) => if v < lo then lo else if hi < v then hi else v
    exec (.setSetting 1 v) s = .next ((held (cut 100 3000)).setSst { s.sst with settings := { s.sst.settings with ewReserve := cut 100 3000 } }) ∧
    exec (.setSetting 2 v) s = .next ((held (cut 1 255)).setSst { s.sst with settings := { s.sst.settings with appendHold := cut 1 255 } }) ∧
    exec (.setSetting 5 v) s = .next ((held (cut 5 500)).setSst { s.sst with settings := { s.sst.settings with qualityThreshold := cut 5 500 } }) ∧
    exec (.setSetting 6 v) s = .next
      { held (cut 4 255) with
        sst := { s.sst with settings := { s.sst.settings with divisor := cut 4 255 } }
        lp := { (held (cut 4 255)).lp with newDivisors := s.lp.newDivisors ++ [{ value := cut 4 255, ahead := s.lp.tx.length + 1 }] } } ∧
    (s.hcm.meter < cut 50 2000 * 100000 → exec (.setSetting 4 v) s = .next
      ((held (cut 50 2000)).setSst { s.sst with settings := { s.sst.settings with cleaningInterval := cut 50 2000 } })) ∧
    (∃ t, exec (.setSetting 4 v) s = .next t ∧ t.sst.settings = { s.sst.settings with cleaningInterval := cut 50 2000 } ∧
      (cut 50 2000 * 100000 ≤ s.hcm.meter → t.hcm.level ≠ .none) ∧ (cut 50 2000 * 125000 ≤ s.hcm.meter → t.hcm.level = .required)) ∧
    (let n := if v = 0 then 0 else cut 10 3600
     s.dtc.copy = none → exec (.setSetting 3 v) s = .next ((held n).setSst { s.sst with settings := { s.sst.settings with checkpointInterval := n } })) ∧
    (let n := if v = 0 then 0 else cut 10 3600
     s.lsq.state = .ready → s.dtc.copy.isSome = true → s.dtc.reader = none → s.dtc.pendCheckpoint = none →
      exec (.setSetting 3 v) s = .next
        { held n with
          sst := { s.sst with settings := { s.sst.settings with checkpointInterval := n } }
          clock := s.clock + 1
          dtc := { s.dtc with pendCheckpoint := some { since := s.clock, closing := false }, interval := if n = 0 then none else some n } })

/-- GRANT writes the entry in the ASC and in the store, adds GRANTS_CHANGED to the port's attention set, makes the context Lost where its entry is emptied or changes its physical partition, and ends OK; a port with no session, or whose session may still append, keeps everything else as it is (R47, R49, R50). A Grant that takes the right to write from the holder of a session that is Streaming or Held closes it: at once with no write of the holder in service, and at the end of that write with one (R50); the session has no slot assembling and a segment not verified, so that nothing is left to it but its closing (R54). That filling an entry that was empty leaves a Valid context as it is, is read from R49 (DEDUCED, log entry 55). -/
def Obligations.GrantsTakeEffect : Prop :=
  ∀ (p : Port) (l r d : Nat) (s : State), s.TakesLibrary → s.Calm → 1 ≤ l → l ≤ 7 → r ≤ 2 → d ≤ 3 → (s.port p).sector.length = 7 →
    let new : Option Grant := if r = 0 then none else some { part := partNumber d, right := if r = 1 then .read else .readWrite }
    let sector := (s.port p).sector.set (l - 1) new
    let ctx :=
      match s.context p with
      | none => none
      | some c => if c.logical = l && (s.grantEntry p l).isSome && (s.grantEntry p l).map (·.part) != new.map (·.part) then none else some c
    let taken : State :=
      { s.libraryEnded 4 .ok .none with
        sst := { s.sst with grants := s.sst.grants.set p sector }
        ports := s.ports.set p { s.port p with sector := sector, attention := { (s.port p).attention with grantsChanged := true } }
        msc := { s.msc with ctx := s.msc.ctx.set p ctx } }
    let answers := fun (t : State) => exec (.grant (match p with | .a => 0 | .b => 1) l r d) s = .next t
    ((∀ q, s.sessionOf p = some q → some { part := q, right := .readWrite } ∈ sector) → answers taken) ∧
    (∀ q, s.sessionOf p = some q → (s.row q).state.isActive = true → some { part := q, right := .readWrite } ∉ sector → s.placingFor q = false →
      let writes := ∃ c, (s.port p).inService = some c ∧ ((∃ n, c.cmd = .writeRecord n) ∨ ∃ n f, c.cmd = .writeMarks n f)
      (writes → (s.row q).closeDue ≠ .afterPlacing → answers (taken.setRow q { s.row q with closeDue := .afterWrite })) ∧
      (¬ writes → s.assemblingOf q = none → 0 < (s.row q).unverified →
        answers (taken.setRow q { s.row q with state := .closing, holdTimer := none, closeDue := .no })))

/-- READ_ATTRIBUTE, WRITE_ATTRIBUTE, LOCK_PARTITION and LAY_OUT_PARTITIONS that may run become the outstanding command and wait for the tag reader as a library access, in Standby as in Ready and without waking the drive (R29); attribute 0 is answered at once (R14, R16, R18, R159). -/
def Obligations.AccessesWaitForTheReader : Prop :=
  ∀ (s : State), s.TakesLibrary → s.Settled →
    let waits := fun (i : Instr) (a : LibAccess) => exec i s = .next
      { s with
        lp := { s.lp with receiver := .hunting, outstanding := some (.access a) }
        dtc := { s.dtc with pendLibrary := some { since := s.clock, access := a } }
        clock := s.clock + 1 }
    (s.lsq.state ≠ .empty → s.lsq.state ≠ .seated → s.lsq.state ≠ .tagRead → s.lsq.state ≠ .ejected →
      (∀ n, 1 ≤ n → n ≤ 32 → waits (.readAttribute n) (.readAttr n)) ∧
      (∀ n b, 1 ≤ n → n ≤ 32 → b.length ≤ 64 → waits (.writeAttribute n b) (.writeAttr n b)) ∧
      exec (.readAttribute 0) s = .next (s.libraryEnded 7 .ok (.bytes [])) ∧
      (∀ b, b.length ≤ 64 → exec (.writeAttribute 0 b) s = .next (s.libraryEnded 8 .ok .none))) ∧
    (s.lsq.state = .ready ∨ s.lsq.state = .standby →
      (∀ d v x, d ≤ 3 → (v = false ∧ x = 0) ∨ (v = true ∧ x = 1) → (s.partDir (partNumber d)).isSome = true →
        waits (.lockPartition d x) (.lock d v)) ∧
      (∀ lanes k, s.dtc.copy = some k → layoutValid k.type lanes = true → (∀ n ∈ lanes, n ≤ 255) →
        (∀ r, (s.row r).state = .none) → s.ports.a.inService = none → s.ports.b.inService = none →
        waits (.layOutPartitions lanes) (.layOut lanes)))

/-! ## Host commands taken into service -/

/-- LOCATE, SPACE_OBJECTS, SPACE_MARKS, SEEK_END and REWIND of a port without a session that resolve to a partition of the layout become command work of the port (R48, R62, R77 to R82); a Space with count 0 ends OK where it is (R79, R80); with the context Lost all but a Locate and a Rewind end POSITION_LOST, and a Rewind that names nothing takes logical partition 1 (R73). -/
def Obligations.PositioningBecomesWork : Prop :=
  ∀ (p : Port) (tag : Nat) (s : State), s.Serves p → s.Calm → s.sessionOf p = none →
    let works := fun (i : Instr) (c : HostCmd) (g : Grant) => exec i s = .next (s.serving p (s.inHand p tag c g .tape))
    (∀ l o g d, o ≤ 4294967295 → s.Resolves p l g d → works (.locate p tag l o) (.locate l o) g) ∧
    (∀ l g d, s.Resolves p l g d → works (.rewind p tag (some l)) (.rewind (some l)) g) ∧
    (∀ g d, s.context p = none → s.Resolves p 1 g d → works (.rewind p tag none) (.rewind none) g) ∧
    (∀ c g d, s.context p = some c → s.Resolves p c.logical g d →
      works (.rewind p tag none) (.rewind none) g ∧
      works (.seekEnd p tag) .seekEnd g ∧
      (∀ n, 1 ≤ n → n ≤ 16777215 →
        works (.spaceObjects p tag 0 n) (.spaceObjects false n) g ∧ works (.spaceObjects p tag 1 n) (.spaceObjects true n) g ∧
        works (.spaceMarks p tag 0 n) (.spaceMarks false n) g ∧ works (.spaceMarks p tag 1 n) (.spaceMarks true n) g) ∧
      (∀ k, k ≤ 1 → exec (.spaceObjects p tag k 0) s = .next (s.ended p 6 tag .ok false .none) ∧
        exec (.spaceMarks p tag k 0) s = .next (s.ended p 7 tag .ok false .none))) ∧
    (s.context p = none →
      exec (.seekEnd p tag) s = .next (s.ended p 8 tag .positionLost false .none) ∧
      (∀ k n, k ≤ 1 → n ≤ 16777215 →
        exec (.spaceObjects p tag k n) s = .next (s.ended p 6 tag .positionLost false .none) ∧
        exec (.spaceMarks p tag k n) s = .next (s.ended p 7 tag .positionLost false .none)))

/-- SYNC of a port without a session ends OK at once; of a port whose open session has a segment not yet verified and no slot assembling it waits in service, and the session is Streaming, or Closing as it was (R53, R132). -/
def Obligations.SyncWaitsForTheSession : Prop :=
  ∀ (p : Port) (tag : Nat) (s : State), s.Serves p → s.Calm →
    (s.sessionOf p = none → exec (.sync p tag) s = .next (s.ended p 11 tag .ok (s.contextEw p) .none)) ∧
    (∀ r, s.sessionOf p = some r → (s.row r).state.isOpen = true → 0 < (s.row r).unverified → s.assemblingOf r = none →
      exec (.sync p tag) s = .next
        ((s.setRow r { s.row r with state := if (s.row r).state = .closing then .closing else .streaming }).serving p
          (s.inHandAlone p tag .sync (.awaitSync r))))

/-- PARK is declined with the success result PARK_DECLINED while a command waits at either port, the other port has one in service, an attention set holds something, a segment is not yet verified, a fill is in progress, or a library command is in service, whether or not the port holds a session; otherwise, in Ready with no turn in progress, the DTC receives a checkpoint request, the transport is parked and the machine enters Standby; in Standby and Waking it ends OK with no further effect (R28). UNLOAD_REQUEST is refused BUSY_OTHER while the other port holds a session or has a command waiting or in service, or a library command is in service; otherwise the unload begins for the port: in Waking it is noted, Standby it wakes (R29), and from Ready, with no session open and no fill or scan at work, the machine enters Draining (R31, R32). That a posted fill counts as one in progress is read from R28 (DEDUCED, log entry 37), and that a library command is still in service after a line reset while its transaction, its Cut or its unload goes on, from R31 and R187 (DEDUCED, log entry 38). -/
def Obligations.ParkAndUnloadRequestBegin : Prop :=
  (∀ (p : Port) (tag : Nat) (s : State), s.Serves p → s.Calm →
     (s.lsq.state = .waking → exec (.park p tag) s = .next (s.ended p 12 tag .ok false .none)) ∧
     (s.lsq.state = .ready →
       ((s.port (otherPort p)).waiting ≠ [] ∨ (s.port (otherPort p)).inService.isSome = true ∨ (s.port (otherPort p)).attention.isEmpty = false ∨
         (∃ r, 0 < (s.row r).unverified) ∨ (∃ q, s.rdu.fills.get q ≠ .none) ∨ s.libraryBusy = true →
         exec (.park p tag) s = .next (s.ended p 12 tag .parkDeclined false .none)) ∧
       ((s.port (otherPort p)).waiting = [] → (s.port (otherPort p)).inService = none → (s.port (otherPort p)).attention.isEmpty = true →
         (∀ r, (s.row r).unverified = 0) → (∀ r, s.drainEligible r = false) → s.rdu.fills = { a := .none, b := .none } → s.libraryBusy = false →
         s.msc.turn = none → s.msc.travel = 0 → s.hcm.openRecord = none → s.dtc.copy.isSome = true → s.dtc.pendCheckpoint = none →
         exec (.park p tag) s = .next
           { s.ended p 12 tag .ok false .none with
             lsq := { s.lsq with state := .standby }
             sst := { s.sst with meter := s.hcm.meter }
             dtc := { s.dtc with pendCheckpoint := some { since := s.clock, closing := false } }
             clock := s.clock + 1
             wvu := { s.wvu with backhitch := none }
             msc := { s.msc with motion := .parked, activity := .idle, atWrite := none } }))) ∧
  (∀ (p : Port) (tag : Nat) (s : State), s.Serves p → s.Settled → s.lsq.state = .standby →
     let q := otherPort p
     let busy := (s.sessionOf q).isSome = true ∨ (s.port q).waiting ≠ [] ∨ (s.port q).inService.isSome = true ∨ s.libraryBusy = true
     exec (.park p tag) s = .next (s.ended p 12 tag .ok false .none) ∧
     (busy → exec (.unloadRequest p tag) s = .next (s.ended p 13 tag .busyOther false .none)) ∧
     (¬ busy → s.lsq.holder = .nobody → exec (.unloadRequest p tag) s = .next
       ((s.setLsq { s.lsq with holder := .port p, state := .waking }).serving p (s.inHandAlone p tag .unloadRequest .unloading)))) ∧
  (∀ (p : Port) (tag : Nat) (s : State), s.Serves p → s.Calm →
     let q := otherPort p
     (s.sessionOf p = none → (s.sessionOf q).isSome = true ∨ (s.port q).waiting ≠ [] ∨ (s.port q).inService.isSome = true ∨ s.libraryBusy = true →
       exec (.unloadRequest p tag) s = .next (s.ended p 13 tag .busyOther false .none)) ∧
     (s.sessionOf p = none → s.sessionOf q = none → (s.port q).waiting = [] → (s.port q).inService = none → s.libraryBusy = false → s.lsq.holder = .nobody →
       (s.lsq.state = .waking → exec (.unloadRequest p tag) s = .next
         ((s.setLsq { s.lsq with holder := .port p }).serving p (s.inHandAlone p tag .unloadRequest .unloading))) ∧
       (s.lsq.state = .ready → (∀ r, (s.row r).state = .none) → s.rdu.scans = { a := none, b := none } → s.msc.turn = none →
         exec (.unloadRequest p tag) s = .next
           ((s.setLsq { s.lsq with holder := .port p, state := .draining }).serving p (s.inHandAlone p tag .unloadRequest .unloading)))))

/-- READ_RECORD at or beyond the committed end ends END_OF_DATA with the context set to it; a read whose beginning the cache does not hold becomes command work; one that the cache holds ends MARK_FOUND for a Mark, the context past it and one mark up, and for a record pins the slots found and sends the expansion engine its request, of one segment or of a First and its Last; where the second segment is missing it keeps its pin on the first and becomes command work (R141, R142, R147, R148). VERIFY_SCAN at or beyond the committed end ends OK with no segment checked; below it the scan becomes command work from the context's object (R153). With the context Lost both end POSITION_LOST (R73). -/
def Obligations.ReadsAndScansBegin : Prop :=
  (∀ (p : Port) (tag limit : Nat) (g : Grant) (d : PartDir) (c : Context) (s : State), s.Serves p → s.Calm → s.sessionOf p = none →
     limit ≤ 1048576 → s.context p = some c → s.Resolves p c.logical g d →
     (d.objects ≤ c.object → exec (.readRecord p tag limit) s = .next
       ((s.setContext p (some { c with object := d.objects, marks := d.marks, atEnd := true })).ended p 3 tag .endOfData false .none)) ∧
     (c.object < d.objects → lookupObject s.sbm.slots g.part c.object = none →
       let x : ReadState := { object := c.object, part := g.part, limit := limit, phase := .awaitingTurn, first := none, held := [], lastRead := none, fallen := false }
       exec (.readRecord p tag limit) s = .next
         ((s.serving p (s.inHand p tag (.readRecord limit) g .reading)).setRdu { s.rdu with reads := s.rdu.reads.set p (some x) })) ∧
     (∀ i k, c.object < d.objects → lookupObject s.sbm.slots g.part c.object = some i → beginsAt (s.slot i) c.object = some k → s.job ≠ some (.read p) →
       let z := s.slot i
       let n := z.header.number
       let pin := fun (y : Slot) (m : Nat) => { y.setPin p true with lastUse := some m }
       let read := fun (x : ReadPhase) (l : List (Nat × Nat)) =>
         { object := c.object, part := g.part, limit := limit, phase := x, first := some n, held := l, lastRead := none, fallen := false : ReadState }
       let reads := fun (x : ReadState) (slots : List Slot) (clock : Nat) (q : List ExpRequest) => exec (.readRecord p tag limit) s = .next
         { s.serving p (s.inHand p tag (.readRecord limit) g .reading) with
           rdu := { s.rdu with reads := s.rdu.reads.set p (some x) }, sbm := { s.sbm with slots := slots }, clock := clock
           rcx := { s.rcx with expQueue := s.rcx.expQueue ++ q } }
       let request := fun (raw stored : Nat) (scheme : Scheme) (bytes : List Byte) =>
         { port := p, scan := false, object := c.object, scheme := scheme, raw := raw, stored := stored, bytes := bytes, limit := min limit raw : ExpRequest }
       let own := fragmentBytes z.entries z.payload k
       (z.entries[k]? = some .mark →
         let y : Context := { c with object := c.object + 1, marks := c.marks + 1, atEnd := c.object + 1 = d.objects }
         ∃ t, exec (.readRecord p tag limit) s = .next t ∧
           t = { s with ports := t.ports, msc := { s.msc with ctx := s.msc.ctx.set p (some y) }, sbm := t.sbm, rcx := t.rcx, rdu := t.rdu, clock := s.clock + 1 } ∧
           t.rdu = { s.rdu with reads := s.rdu.reads.set p none } ∧ (∀ j, (t.slot j).pinnedBy p = false) ∧
           t.ports = s.ports.set p (t.port p) ∧ t.port p = ((s.setContext p (some y)).ended p 3 tag .markFound false (.rawLength 0)).port p) ∧
       (∀ raw m scheme, z.entries[k]? = some (.whole raw m scheme) →
         reads (read .delivering [(n, i)]) (s.sbm.slots.set i (pin z s.clock)) (s.clock + 1) [request raw m scheme own]) ∧
       (∀ raw m scheme, z.entries[k]? = some (.first raw m scheme) →
         (∀ j e, lookupSlot s.sbm.slots g.part (n + 1) = some j → (s.slot j).header.firstObject = some c.object → (s.slot j).entries.head? = some (.last e scheme) →
           reads (read .delivering [(n, i), (n + 1, j)]) ((s.sbm.slots.set i (pin z s.clock)).set j (pin (s.slot j) (s.clock + 1))) (s.clock + 2)
             [request raw (m + e) scheme (own ++ fragmentBytes (s.slot j).entries (s.slot j).payload 0)]) ∧
         (lookupSlot s.sbm.slots g.part (n + 1) = none →
           reads (read .awaitingTurn [(n, i)]) (s.sbm.slots.set i (pin z s.clock)) (s.clock + 1) [])))) ∧
  (∀ (p : Port) (tag : Nat) (g : Grant) (d : PartDir) (c : Context) (s : State), s.Serves p → s.Calm → s.sessionOf p = none →
     s.context p = some c → s.Resolves p c.logical g d →
     (d.objects ≤ c.object → exec (.verifyScan p tag) s = .next
       ((s.setContext p (some { c with object := d.objects, marks := d.marks, atEnd := true })).ended p 4 tag .ok false (.scan 0 d.objects none))) ∧
     (c.object < d.objects → ∃ x, exec (.verifyScan p tag) s = .next
         ((s.serving p (s.inHand p tag .verifyScan g .reading)).setRdu { s.rdu with scans := s.rdu.scans.set p (some x) }) ∧
       x.part = g.part ∧ x.start = c.object ∧ x.checkedPoint = c.object ∧ x.segmentsChecked = 0 ∧ x.pending = false ∧ x.found = [] ∧ x.ended = none)) ∧
  (∀ (p : Port) (tag limit : Nat) (s : State), s.Serves p → s.Calm → s.sessionOf p = none → limit ≤ 1048576 → s.context p = none →
     exec (.readRecord p tag limit) s = .next (s.ended p 3 tag .positionLost false .none) ∧
     exec (.verifyScan p tag) s = .next (s.ended p 4 tag .positionLost false .none))

/-- TRUNCATE is refused by its checks in order, POSITION_LOST (R73) and those of the grant (R48) first; at the committed end it cuts nothing and opens a session with its hold timer started; below it, it takes a slot and becomes command work (R111, R134, R160). When its segment has been read, the copy is cut and the effects of R135 take place at one event: the directory, the read side, the session, both contexts, and the end OK. That the row is Streaming after a cut of nothing (log entry 54), and that the slot names its row and its port before the copy is complete (log entry 11), are read from R53, R111 and R135 (DEDUCED). That a Truncate refused before it has resolved a partition carries a false EW flag, where R120 speaks of the partition resolved alone, is the model's own choice (log entry 79). -/
def Obligations.TruncatesBegin : Prop :=
  (∀ (p : Port) (tag : Nat) (g : Grant) (d : PartDir) (c : Context) (s : State), s.Serves p → s.Calm → s.sessionOf p = none →
    s.context p = some c → s.Resolves p c.logical g d → g.right = .readWrite →
    let r := g.part
    let ends := fun (x : HostResult) (y : Detail) => exec (.truncate p tag) s = .next (s.ended p 10 tag x (s.ew r) y)
    (s.writeProtected r = true → ends .writeProtected .none) ∧
    (s.writeProtected r = false → (s.row r).state ≠ .none → ends .sessionHeld (if (s.row r).state = .closing then .closing else .none)) ∧
    (s.writeProtected r = false → (s.row r).state = .none → s.hcm.level = .required → ends .headService .none) ∧
    (s.writeProtected r = false → (s.row r).state = .none → s.hcm.level ≠ .required →
      (d.objects ≤ c.object → s.dtc.tagBehind = false → s.copyCurrent = false → ∃ t, exec (.truncate p tag) s = .next t ∧
        t = { s with ports := t.ports, rows := t.rows } ∧ t.ports = s.ports.set p (t.port p) ∧
        t.rows = s.rows.set r
          { Row.empty with
            holder := some p, state := .streaming, firstObject := d.objects, nextSegment := d.segments, marksNext := d.marks
            holdTimer := some s.sst.settings.appendHold } ∧
        t.port p = (s.ended p 10 tag .ok (s.ew r) .none).port p) ∧
      (∀ i, c.object < d.objects → s.sbm.requests = [] → slotForWriting s.sbm.slots = some i → exec (.truncate p tag) s = .next
        ((s.serving p (s.inHand p tag .truncate g .tape)).setSlot i
          { Slot.free with state := .assembling, owner := .row r, header := { blankHeader with part := r }, copying := some p })))) ∧
  (∀ (p : Port) (tag : Nat) (s : State), s.Serves p → s.Calm → s.sessionOf p = none →
    let ends := fun (x : HostResult) (y : Detail) => exec (.truncate p tag) s = .next (s.ended p 10 tag x false y)
    (s.context p = none → ends .positionLost .none) ∧
    (∀ c, s.context p = some c → s.grantEntry p c.logical = none → ends .notGranted .none) ∧
    (∀ c g, s.context p = some c → s.grantEntry p c.logical = some g → s.partDir g.part = none → ends .noSuchPartition .none) ∧
    (∀ c g d, s.context p = some c → s.Resolves p c.logical g d → g.right = .read → ends .notGranted .readOnly)) ∧
  (∀ (p : Port) (r : Part) (a : Acc) (x : StripeSet) (named : Bool) (c : Segment) (m : InService) (y : Context) (d : PartDir) (i k w : Nat) (s : State),
    s.Calm → s.msc.activity = .reading → s.rdu.acc = some a → a.forScan = false → a.attempt = some k → a.part = r → 14 ≤ stripeCount (a.readable ||| x) →
    s.msc.turn = some { job := .truncate p, written := w, stopping := false, leaving := none } →
    (s.port p).inService = some m → m.cmd = .truncate → m.part = some r → s.context p = some y → s.contextIn p r = true → s.partDir r = some d →
    s.copySlot p = some i → s.writeProtected r = false → (s.row r).state = .none → s.sessionOf p = none →
    let n := c.header.number
    let before := c.entries.take (y.object - c.header.firstObject.getD 0)
    let marks := c.header.marksBefore.getD 0 + markCount before
    let there := fun (z : Context) => { z with object := y.object, marks := marks, atEnd := true : Context }
    let kept := (c.payload.take (payloadOffset c.entries (y.object - c.header.firstObject.getD 0))).length
    s.assemblingOf r = none → before.length < 512 → kept + 8 * before.length + 72 ≤ 262144 →
    ∃ t, exec (.stripeSetRead x named c) s = .next t ∧
      t.partDir r = some (cutDir d n y.object marks (s.partOffset r (s.slot i).lane (s.slot i).offset) (s.slot i).lane) ∧ t.dtc.tagBehind = true ∧
      t.row r = { Row.empty with
        holder := some p, state := .streaming, firstObject := y.object, nextSegment := n + 1, marksNext := marks
        holdTimer := some s.sst.settings.appendHold } ∧
      (t.slot i).state = .assembling ∧ (t.slot i).owner = .row r ∧ (t.slot i).copying = none ∧ (t.slot i).header.number = n ∧
      (t.slot i).header.attempt = 0 ∧ (t.slot i).entries = before ∧
      (∀ j, (t.slot j).readSide = true → (t.slot j).header.part = r → n ≤ (t.slot j).header.number → (t.slot j).invalidated = true) ∧
      t.context p = some (there y) ∧
      (∀ z, s.context (otherPort p) = some z → s.contextIn (otherPort p) r = true →
        (y.object < z.object → t.context (otherPort p) = some (there z) ∧ (t.port (otherPort p)).attention.partitionTruncated = true) ∧
        (z.object = y.object → t.context (otherPort p) = some { z with atEnd := true }) ∧
        (z.object < y.object → t.context (otherPort p) = some z)) ∧
      (t.port p).inService = none ∧ (t.port p).outcome.map (fun o => (o.command, o.tag, o.result)) = some (10, m.tag, .ok) ∧ t.msc.turn = none)

/-- WRITE_RECORD of a port without a session is refused by the checks of R52 in order, the last of them the capacity admission: the remaining positions less the session's write-side slots and the fresh slots that the declared length would take must be 96 or more (R7, R110, R119); when they pass, its session opens at the context's object, asking for a stale mark where the tag is not stale, it takes a slot, and data credit is given for the whole record (R52, R91, R103, R160, R183). A write that continues its session is refused PARTITION_FULL by the same admission, and its hold timer restarts (R53, R119). With the context Lost a Write Record and a Write Marks end POSITION_LOST (R73). That a write refused before it has resolved a partition carries a false EW flag, where R120 speaks of the partition resolved alone, is the model's own choice (log entry 79). -/
def Obligations.WriteRecordsOpen : Prop :=
  (∀ (p : Port) (tag n : Nat) (g : Grant) (d : PartDir) (c : Context) (s : State), s.Serves p → s.Calm → s.sessionOf p = none →
    1 ≤ n → n ≤ 1048576 → s.context p = some c → s.Resolves p c.logical g d → g.right = .readWrite →
    let r := g.part
    let ends := fun (x : HostResult) (y : Detail) => exec (.writeRecord p tag n) s = .next (s.ended p 1 tag x (s.ew r) y)
    let fresh := fun (m : Nat) => (m + 262071) / 262072
    let k := match (s.assemblingOf r).map s.slot with
      | none => fresh n
      | some x =>
        if x.entries ≠ [] ∧ 1048288 < n then fresh n
        else if 512 ≤ x.entries.length ∨ x.room < 9 then fresh n
        else if 8 + n ≤ x.room then 0
        else fresh (n + 8 - x.room)
    let pending := s.sbm.slots.countP (fun x => x.ofSession r)
    let admitted := 96 + (pending + k) ≤ s.remaining r
    (s.writeProtected r = true → ends .writeProtected .none) ∧
    (s.writeProtected r = false → (s.row r).state ≠ .none → ends .sessionHeld (if (s.row r).state = .closing then .closing else .none)) ∧
    (s.writeProtected r = false → (s.row r).state = .none → c.object ≠ d.objects → ends .notAtEnd .none) ∧
    (s.writeProtected r = false → (s.row r).state = .none → c.object = d.objects → s.hcm.level = .required → ends .headService .none) ∧
    (s.writeProtected r = false → (s.row r).state = .none → c.object = d.objects → s.hcm.level ≠ .required → ¬ admitted → ends .partitionFull .none) ∧
    (s.writeProtected r = false → (s.row r).state = .none → c.object = d.objects → s.hcm.level ≠ .required → admitted →
      ∀ i, s.assemblingOf r = none → s.sbm.requests = [] → slotForWriting s.sbm.slots = some i →
      let t := s.serving p (s.inHand p tag (.writeRecord n) g .receiving)
      exec (.writeRecord p tag n) s = .next
        { t.setSlot i { Slot.free with state := .assembling, owner := .row r, header := { blankHeader with part := r, number := d.segments } } with
          ports := s.ports.set p { t.port p with tx := (s.port p).tx ++ [.dataRequest tag n], credit := some n }
          rows := s.rows.set r { Row.empty with holder := some p, state := .streaming, firstObject := c.object, nextSegment := d.segments + 1, marksNext := d.marks }
          rcx := { s.rcx with intake := s.rcx.intake.set p (.receiving n []) }
          dtc := if s.copyCurrent || s.dtc.tagBehind then { s.dtc with waiters := s.dtc.waiters ++ [r], pendStale := some (s.dtc.pendStale.getD s.clock) } else s.dtc })) ∧
  (∀ (p : Port) (tag n : Nat) (g : Grant) (d : PartDir) (c : Context) (s : State), s.Serves p → s.Calm → s.sessionOf p = some g.part →
    1 ≤ n → n ≤ 1048576 → s.context p = some c → s.Resolves p c.logical g d → g.right = .readWrite →
    let r := g.part
    (s.row r).state.isActive = true → (s.row r).closeDue = .no → c.object = (s.row r).firstObject + (s.row r).admitted →
    let full := fun (k : Nat) => s.remaining r < 96 + (s.sbm.slots.countP (fun x => x.ofSession r) + k) →
      exec (.writeRecord p tag n) s = .next
        ((s.setRow r
          { s.row r with
            state := if (s.row r).unverified = 0 then .held else .streaming
            holdTimer := some s.sst.settings.appendHold }).ended p 1 tag .partitionFull (s.ew r) .none)
    (s.assemblingOf r = none → full ((n + 262071) / 262072)) ∧
    (∀ i, s.assemblingOf r = some i → (s.slot i).entries.length < 512 → 9 ≤ (s.slot i).room → (s.slot i).entries = [] ∨ n ≤ 1048288 →
      full (if 8 + n ≤ (s.slot i).room then 0 else (n + 8 - (s.slot i).room + 262071) / 262072))) ∧
  (∀ (p : Port) (tag n : Nat) (s : State), s.Serves p → s.Calm → s.sessionOf p = none → s.context p = none → 1 ≤ n →
    (n ≤ 1048576 → exec (.writeRecord p tag n) s = .next (s.ended p 1 tag .positionLost false .none)) ∧
    (∀ f, n ≤ 255 → f ≤ 1 → exec (.writeMarks p tag n f) s = .next (s.ended p 2 tag .positionLost false .none)))

/-- WRITE_MARKS in Buffered mode without its sync flag, continuing a session whose assembling slot takes all its marks and more, places them one by one: each is admitted, the context passes it, the command ends OK with the hold timer started and a checkpoint requested (R52, R53, R106, R119, R133). -/
def Obligations.MarksAreWritten : Prop :=
  ∀ (p : Port) (tag n i : Nat) (g : Grant) (d : PartDir) (c : Context) (s : State), s.Serves p → s.Calm →
    1 ≤ n → n ≤ 255 → s.context p = some c → s.Resolves p c.logical g d → g.right = .readWrite →
    let r := g.part
    let x := s.slot i
    s.sessionOf p = some r → (s.row r).state.isActive = true → c.object = (s.row r).firstObject + (s.row r).admitted →
    s.admits r (s.newSlots r (.writeMarks n false)) = true → s.assemblingOf r = some i →
    x.entries.length + n < 512 → 8 * n + 8 ≤ x.room → (s.port p).options.verified = false → (s.row r).closeDue = .no → s.placingFor r = false →
    s.dtc.copy.isSome = true → s.dtc.pendCheckpoint = none →
    ∃ t, exec (.writeMarks p tag n 0) s = .next t ∧
      t = { s with ports := t.ports, rows := t.rows, msc := t.msc, sbm := t.sbm, dtc := t.dtc, clock := s.clock + 1 } ∧
      t.rows = s.rows.set r
        { s.row r with
          state := if (s.row r).unverified = 0 then .held else .streaming
          holdTimer := some s.sst.settings.appendHold
          admitted := (s.row r).admitted + n
          marksNext := (s.row r).marksNext + n } ∧
      t.msc = { s.msc with ctx := s.msc.ctx.set p (some { c with object := c.object + n, marks := c.marks + n, atEnd := true }) } ∧
      t.dtc = { s.dtc with pendCheckpoint := some { since := s.clock, closing := false } } ∧
      t.sbm = { s.sbm with slots := s.sbm.slots.set i (t.slot i) } ∧
      (t.slot i).entries = x.entries ++ List.replicate n .mark ∧ (t.slot i).payload = x.payload ∧ (t.slot i).state = x.state ∧
      (t.slot i).header =
        { x.header with
          firstObject := if x.entries.isEmpty then some c.object else x.header.firstObject
          marksBefore := if x.entries.isEmpty then some (s.row r).marksNext else x.header.marksBefore
          entryCount := x.entries.length + n
          payloadLength := x.payload.length } ∧
      t.ports = s.ports.set p (t.port p) ∧
      t.port p = ((s.setMsc t.msc).ended p 2 tag .ok (s.ew r) .none).port p

/-- A positioning command, a read, a Verify Scan or a Truncate of a session's holder closes the session first, and waits in service while it is Closing, whatever right its grant gives where the command needs no more than READ (R54, R55). That a Space with count 0 closes the session and waits too, before it ends OK (R79, R80), is the model's own choice (log entry 61). -/
def Obligations.HoldersWorkClosesTheSession : Prop :=
  ∀ (p : Port) (tag : Nat) (q : Part) (s : State), s.Serves p → s.Calm →
    s.sessionOf p = some q → (s.row q).state = .streaming ∨ (s.row q).state = .held → s.assemblingOf q = none → 0 < (s.row q).unverified →
    s.placingFor q = false →
    let waits := fun (i : Instr) (x : HostCmd) (g : Grant) => exec i s = .next
      ((s.setRow q { s.row q with state := .closing, holdTimer := none, closeDue := .no }).serving p (s.inHand p tag x g (.waitClose q)))
    (∀ l g d, s.Resolves p l g d →
      waits (.rewind p tag (some l)) (.rewind (some l)) g ∧ ∀ o, o ≤ 4294967295 → waits (.locate p tag l o) (.locate l o) g) ∧
    (∀ g d c, s.context p = some c → s.Resolves p c.logical g d →
      waits (.seekEnd p tag) .seekEnd g ∧ waits (.rewind p tag none) (.rewind none) g ∧ waits (.verifyScan p tag) .verifyScan g ∧
      (g.right = .readWrite → waits (.truncate p tag) .truncate g) ∧
      (∀ n, n ≤ 1048576 → waits (.readRecord p tag n) (.readRecord n) g) ∧
      (∀ n, n ≤ 16777215 →
        waits (.spaceObjects p tag 0 n) (.spaceObjects false n) g ∧ waits (.spaceObjects p tag 1 n) (.spaceObjects true n) g ∧
        waits (.spaceMarks p tag 0 n) (.spaceMarks false n) g ∧ waits (.spaceMarks p tag 1 n) (.spaceMarks true n) g))

/-- COMMAND_TAKEN_INTO_SERVICE takes the oldest waiting command into an empty place and judges it in the order of R41: the load state (R27), the attention set, which is reported and emptied, a Failed row of the port that its deferred fault names returning to None (R46, R56), then the command's own checks, after which it has its effect. A grant that is missing, that names a partition outside the layout, or that has READ where READ_WRITE is needed refuses the command NOT_GRANTED, NO_SUCH_PARTITION, or NOT_GRANTED with READ_ONLY (R48). That a write or a Truncate refused before it has resolved a partition carries a false EW flag, where R120 speaks of the partition resolved alone, is the model's own choice (log entry 79). -/
def Obligations.CommandsAreTakenAndResolved : Prop :=
  (∀ (p : Port) (q : Queued) (rest : List Queued) (s : State), (s.port p).inService = none → s.layOutActive = false →
     (s.port p).waiting = q :: rest → s.Calm → s.sessionOf p = none →
     let left := s.setPort p { s.port p with waiting := rest }
     let code := cmdCode q.cmd
     let ew := code == 11 && s.contextEw p
     let ends := fun (x : HostResult) (y : Detail) => exec (.commandTakenIntoService p) s = .next (left.ended p code q.tag x ew y)
     (s.lsq.state = .empty → ends .noCartridge .none) ∧
     (s.lsq.state ≠ .empty → s.lsq.state ≠ .ready → s.lsq.state ≠ .standby → s.lsq.state ≠ .waking → ends .notReady .none) ∧
     (s.lsq.state = .ready ∨ s.lsq.state = .waking → (s.port p).attention.isEmpty = false →
       exec (.commandTakenIntoService p) s = .next
         ((left.setPort p { left.port p with attention := Attention.empty }).ended p code q.tag .attention ew (.attention (s.port p).attention))) ∧
     (s.lsq.state = .ready ∨ s.lsq.state = .waking → (s.port p).attention.isEmpty = true →
       (q.cmd = .sync → ends .ok .none) ∧
       (∀ l o g d, q.cmd = .locate l o → s.Resolves p l g d →
         exec (.commandTakenIntoService p) s = .next (left.serving p (s.inHand p q.tag q.cmd g .tape))))) ∧
  (∀ (p : Port) (q : Queued) (rest : List Queued) (r : Part) (f : DeferredFault) (s : State), (s.port p).inService = none → s.layOutActive = false →
     (s.port p).waiting = q :: rest → s.Calm → s.sessionOf p = some r → (∀ x, s.holds p x = true → x = r) → (s.row r).state = .failed →
     (s.port p).attention.deferred = some f → f.part = r → s.lsq.state = .ready ∨ s.lsq.state = .waking →
     ∃ t ew, exec (.commandTakenIntoService p) s = .next t ∧ t.rows = s.rows.set r Row.empty ∧ t.ports = s.ports.set p (t.port p) ∧
       (t.port p).attention = Attention.empty ∧ (t.port p).inService = none ∧ (t.port p).waiting = rest ∧
       (t.port p).tx = (s.port p).tx ++ [.response q.tag .attention ew (s.context p) (.attention (s.port p).attention)] ∧
       (t.port p).outcome.map (fun o => (o.command, o.tag, o.result, o.detail)) =
         some (cmdCode q.cmd, q.tag, .attention, .attention (s.port p).attention) ∧
       t.dtc.pendCheckpoint = s.dtc.pendCheckpoint) ∧
  (∀ (p : Port) (tag l o : Nat) (s : State), s.Serves p → s.Calm → s.sessionOf p = none → 1 ≤ l → l ≤ 7 → o ≤ 4294967295 →
     (s.grantEntry p l = none → exec (.locate p tag l o) s = .next (s.ended p 5 tag .notGranted false .none)) ∧
     (∀ g, s.grantEntry p l = some g → s.partDir g.part = none → exec (.locate p tag l o) s = .next (s.ended p 5 tag .noSuchPartition false .none)) ∧
     (∀ g d c, s.context p = some c → s.Resolves p c.logical g d → g.right = .read →
       exec (.truncate p tag) s = .next (s.ended p 10 tag .notGranted false .readOnly) ∧
       ∀ n, 1 ≤ n → n ≤ 1048576 → exec (.writeRecord p tag n) s = .next (s.ended p 1 tag .notGranted false .readOnly)))

/-! ## Records in and out -/

/-- DATA_FRAME: the bytes of a frame for the Write Record that is receiving join its intake; the frame that completes the record puts it in the packing engine's queue; a record that comes too long or too short ends its command FORMAT_FAULT with the intake emptied; a frame that no receiving Write Record of its tag awaits is discarded (R91, R183), one with the tag of a command past its final flag among them (DEDUCED, log entry 40). PACKING_ENGINE_TAKES_RECORD: an engine with nothing in hand takes the record at the head of its queue; a busy engine, or an empty queue, changes nothing (R91). That an event or internal step which is not due changes nothing is the model's own choice (log entry 3). -/
def Obligations.RecordsReachThePackingEngine : Prop :=
  (∀ (p : Port) (tag n : Nat) (final : Bool) (bytes b : List Byte) (c : InService) (s : State), s.resetLine = false → s.Calm →
     (s.port p).inService = some c → c.cmd = .writeRecord n →
     (c.tag ≠ tag ∨ c.phase ≠ .receiving ∨ (s.port p).credit = none → exec (.dataFrame p tag final bytes) s = .next s) ∧
     (c.tag = tag → c.phase = .receiving → (s.port p).credit.isSome = true → s.rcx.intake.get p = .receiving n b →
       (final = false → b.length + bytes.length ≤ n → exec (.dataFrame p tag final bytes) s = .next
         { s with rcx := { s.rcx with intake := s.rcx.intake.set p (.receiving n (b ++ bytes)) } }) ∧
       (final = true → b.length + bytes.length = n → c.compress = true → exec (.dataFrame p tag final bytes) s = .next
         { s with
           rcx := { s.rcx with intake := s.rcx.intake.set p (.waiting (b ++ bytes)), packQueue := s.rcx.packQueue ++ [p] }
           ports := s.ports.set p { s.port p with inService := some { c with phase := .compressing } } }) ∧
       (n < b.length + bytes.length ∨ (final = true ∧ b.length + bytes.length < n) → ∃ t, exec (.dataFrame p tag final bytes) s = .next t ∧
         t.rcx.intake.get p = .empty ∧ (t.port p).inService = none ∧ (t.port p).credit = none ∧
         (t.port p).outcome.map (fun o => (o.command, o.tag, o.result)) = some (1, tag, .formatFault)))) ∧
  (∀ (s : State),
     (s.rcx.packer.isSome = true ∨ s.rcx.packQueue = [] → exec .packingEngineTakesRecord s = .next s) ∧
     (∀ p rest b, s.rcx.packer = none → s.rcx.packQueue = p :: rest → s.rcx.intake.get p = .waiting b →
       exec .packingEngineTakesRecord s = .next
         (s.setRcx
           { s.rcx with
             packer := some { port := p, history := [], tokens := [], bits := 0 }
             packQueue := rest
             intake := s.rcx.intake.set p (.packing b) })))

/-- RECORD_PACKED: the engine is free and the record in its stored form, packed where that is shorter, is placed whole in the assembling slot of the session it was admitted to where it fits with room to spare, and otherwise, where no other slot of the row assembles, in fragments, a First that fills that slot, a Middle that fills a fresh one where the rest is longer than one holds, and a Last; each slot filled is READY with one segment more unverified. A slot that cannot take its first fragment, or that a record longer than 1,048,288 bytes would begin behind other entries, closes first, and where no slot can be taken the record waits for one. The object is admitted, the holder's context passes it, and in Buffered mode the command ends OK; a record whose session was lost meanwhile is dropped and its command ends WRITE_FAULT (R88, R92, R102, R106 to R109). -/
def Obligations.PackedRecordsArePlaced : Prop :=
  ∀ (p : Port) (n : Nat) (b : List Byte) (k : Packer) (c : InService) (r : Part) (s : State), s.Calm →
    s.rcx.packer = some k → k.port = p → s.rcx.intake.get p = .packing b → (s.port p).inService = some c → c.cmd = .writeRecord n → c.part = some r →
    let stored := storedForm b
    (c.lost = true → (∀ q, s.sessionOf p = some q → (s.row q).state.isActive = false) → exec .recordPacked s = .next
      { s.ended p 1 c.tag .writeFault (s.ew r) .none with rcx := { s.rcx with packer := none, intake := s.rcx.intake.set p .empty } }) ∧
    (∀ i x, c.lost = false → s.sessionOf p = some r → (s.row r).state.isActive = true → s.assemblingOf r = some i → s.slot i = x →
      x.entries.length + 1 < 512 → stored.2.length + 16 ≤ x.room → stored.2.length ≤ 262072 → c.verified = false → (s.row r).closeDue = .no →
      s.sbm.placing = { a := none, b := none } →
      (∀ y, s.context p = some y → (s.grantEntry p y.logical).map (·.part) = some r) →
      ∃ t, exec .recordPacked s = .next t ∧
        t = { s with ports := t.ports, rows := t.rows, msc := t.msc, rcx := t.rcx, sbm := t.sbm, wvu := t.wvu } ∧
        t.rcx = { s.rcx with packer := none, intake := s.rcx.intake.set p .empty } ∧
        t.rows = s.rows.set r
          { s.row r with
            state := if (s.row r).unverified = 0 then .held else .streaming
            holdTimer := some s.sst.settings.appendHold
            admitted := (s.row r).admitted + 1 } ∧
        t.msc = { s.msc with ctx := s.msc.ctx.set p ((s.context p).map (fun y => { y with object := y.object + 1, atEnd := true })) } ∧
        t.sbm = { s.sbm with slots := s.sbm.slots.set i (t.slot i) } ∧
        (t.slot i).entries = x.entries ++ [.whole b.length stored.2.length stored.1] ∧ (t.slot i).payload = x.payload ++ stored.2 ∧
        (t.slot i).header.entryCount = x.entries.length + 1 ∧ (t.slot i).header.payloadLength = x.payload.length + stored.2.length ∧
        (x.entries = [] → (t.slot i).header.firstObject = some ((s.row r).firstObject + (s.row r).admitted) ∧
          (t.slot i).header.marksBefore = some (s.row r).marksNext) ∧
        t.wvu = { s.wvu with rate := { s.wvu.rate with bytes := s.wvu.rate.bytes + if s.wvu.rate.subject = .session r then stored.2.length else 0 } } ∧
        t.ports = s.ports.set p (t.port p) ∧ t.port p = ((s.setMsc t.msc).ended p 1 c.tag .ok (s.ew r) .none).port p) ∧
    (∀ i x, c.lost = false → s.sessionOf p = some r → (s.row r).state.isActive = true → s.assemblingOf r = some i → s.slot i = x →
      let n := stored.2.length
      let sets := fun (y : Slot) (e : Entry) (bytes : List Byte) =>
        { y with
          entries := y.entries ++ [e], payload := y.payload ++ bytes
          header := { y.header with
            firstObject := if y.entries.isEmpty then some ((s.row r).firstObject + (s.row r).admitted) else y.header.firstObject
            marksBefore := if y.entries.isEmpty then some (s.row r).marksNext else y.header.marksBefore
            entryCount := y.entries.length + 1, payloadLength := y.payload.length + bytes.length } : Slot }
      let fresh := fun (number : Nat) => { Slot.free with state := .assembling, owner := .row r, header := { blankHeader with part := r, number := number } : Slot }
      let next := (s.row r).nextSegment
      (x.entries.length < 512 → 9 ≤ x.room → x.room < 8 + n → (x.entries = [] ∨ n ≤ 1048288) → c.verified = false → (s.row r).closeDue = .no →
        s.sbm.placing = { a := none, b := none } → s.sbm.requests = [] → (∀ y, s.context p = some y → (s.grantEntry p y.logical).map (·.part) = some r) →
        let m := x.room - 8
        let begun := { sets x (.first b.length m stored.1) (stored.2.take m) with state := .ready }
        let first := s.sbm.slots.set i begun
        let places := fun (slots : List Slot) (k : Nat) => ∃ t, exec .recordPacked s = .next t ∧
          t = { s with ports := t.ports, rows := t.rows, msc := t.msc, rcx := t.rcx, sbm := { s.sbm with slots := slots }, wvu := t.wvu } ∧
          t.rcx = { s.rcx with packer := none, intake := s.rcx.intake.set p .empty } ∧
          t.rows = s.rows.set r
            { s.row r with
              state := .streaming, holdTimer := some s.sst.settings.appendHold, admitted := (s.row r).admitted + 1
              unverified := (s.row r).unverified + k, nextSegment := next + k } ∧
          t.msc = { s.msc with ctx := s.msc.ctx.set p ((s.context p).map (fun y => { y with object := y.object + 1, atEnd := true })) } ∧
          t.wvu = { s.wvu with rate := { s.wvu.rate with bytes := s.wvu.rate.bytes + if s.wvu.rate.subject = .session r then n else 0 } } ∧
          t.ports = s.ports.set p (t.port p) ∧ t.port p = ((s.setMsc t.msc).ended p 1 c.tag .ok (s.ew r) .none).port p
        (∀ j, ({ s with sbm := { s.sbm with slots := first } }).assemblingOf r = none → slotForWriting first = some j →
          (n - m ≤ 262064 →
            places (first.set j (sets (fresh next) (.last (n - m) stored.1) (stored.2.drop m))) 1) ∧
          (∀ k, 262072 < n - m → n - m ≤ 524136 →
            let middle := { sets (fresh next) (.middle 262072 stored.1) ((stored.2.drop m).take 262072) with state := .ready }
            slotForWriting (first.set j middle) = some k →
            places ((first.set j middle).set k (sets (fresh (next + 1)) (.last (n - m - 262072) stored.1) ((stored.2.drop m).drop 262072))) 2))) ∧
      (x.entries ≠ [] → 1 ≤ n → (1048288 < n ∨ x.room < 9) → s.sbm.requests ≠ [] ∨ slotForWriting (s.sbm.slots.set i { x with state := .ready }) = none →
        exec .recordPacked s = .next
          { s with
            ports := s.ports.set p { s.port p with inService := some { c with phase := .placing } }
            rows := s.rows.set r { s.row r with state := .streaming, unverified := (s.row r).unverified + 1 }
            rcx := { s.rcx with packer := none, intake := s.rcx.intake.set p (.packed b.length stored.1 stored.2) }
            sbm := { s.sbm with
              slots := s.sbm.slots.set i { x with state := .ready }
              placing := s.sbm.placing.set p (some { row := r, scheme := stored.1, raw := b.length, begun := false })
              requests := s.sbm.requests ++ [{ row := r, port := p, reason := .placing }] } }))

/-- A record's stored form is never longer than the record, is packed exactly where the packed bytes are fewer, and is the record itself otherwise (R88). The tokens of the packing code lose nothing: the tokens the encoder chooses for any record make that record again, and every copy keeps to the distances and lengths of the code (R86, R87). -/
def Obligations.PackingLosesNothing : Prop :=
  (∀ b : List Byte, (storedForm b).2.length ≤ b.length ∧
     ((storedForm b).1 = .packed ↔ (streamBytes (encode b)).length < b.length) ∧
     ((storedForm b).1 = .packed → (storedForm b).2 = streamBytes (encode b)) ∧ ((storedForm b).1 = .stored → (storedForm b).2 = b)) ∧
  (∀ b : List Byte, expandTokens (encode b) [] = b.reverse ∧
     ∀ d n, Token.copy d n ∈ encode b → 1 ≤ d ∧ d ≤ 2048 ∧ 3 ≤ n ∧ n ≤ 66)

/-- EXPANSION_ENGINE_TAKES_REQUEST: an engine with nothing in hand takes the next request; one whose description is at fault ends DECODE_FAULT with no byte produced, a count that the response carries and the outcome record does not (R43, R95, R149); while the port still holds an unsent data frame the engine waits at its beginning, one of an earlier request too by the model's own choice (log entry 82), and a Stored record of one frame is otherwise produced whole (R96). -/
def Obligations.RequestsAreTaken : Prop :=
  ∀ (q : ExpRequest) (rest : List ExpRequest) (s : State), s.Calm → s.rcx.expander = none → s.rcx.expQueue = q :: rest →
    let good := 1 ≤ q.raw ∧ q.raw ≤ 1048576 ∧ (q.scheme = .stored → q.stored = q.raw) ∧ (q.scheme = .packed → q.stored < q.raw)
    (good → s.unsentData q.port = true → exec .expansionEngineTakesRequest s = .next
      { s with rcx := { s.rcx with expQueue := rest, expander := some { req := q, produced := 0, history := [], place := 0, framed := 0, held := [] } } }) ∧
    (good → s.unsentData q.port = false → q.scheme = .stored → q.bytes.length = q.raw → q.raw ≤ 8192 → q.limit ≤ q.raw →
      let e : Expander := { req := q, produced := q.raw, history := (q.bytes.reverse).take 2048, place := 8 * q.raw, framed := 0, held := q.bytes.take q.limit }
      exec .expansionEngineTakesRequest s = .next (s.setRcx { s.rcx with expQueue := rest, expander := some e })) ∧
    (¬ good → q.scan = false → ∀ x c, s.rdu.reads.get q.port = some x → (s.port q.port).inService = some c →
      ∃ t, exec .expansionEngineTakesRequest s = .next t ∧ t.rcx.expander = none ∧ t.rdu.reads.get q.port = none ∧
        (t.port q.port).inService = none ∧ (t.port q.port).outcome.map (fun o => (o.tag, o.result, o.detail)) = some (c.tag, .decodeFault, .none) ∧
        ∃ ew, (t.port q.port).tx = (s.port q.port).tx ++ [.response c.tag .decodeFault ew (s.context q.port) (.produced 0)])

/-- RECORD_EXPANDED: a Read Record's record produced to its end sends its last data frame and its response, OK or LONG_RECORD, with the record's raw length, which the outcome record keeps with LONG_RECORD alone (R43), and the context moves past the object; the read, its request and its pins are gone (R96, R148); an object that now lies at or beyond the committed end leaves the context at that end (R148), and so does one that a cut took away during the read, also where the end has grown above it again (DEDUCED, log entry 73); a slot marked for its release that no other read pins is freed (R114), its owner's option notwithstanding. The last expansion of a Verify Scan whose reading is complete ends the scan OK, with the segments checked and the checked point, the context at the object that the grant took as the end with the marks counted then, and the turn ends (R153, R154); at the committed end, where that lies below by now, by the model's own choice (log entry 98). DECODE_FAULT: a Read Record's record whose next token is at fault ends its command DECODE_FAULT with the count of bytes produced; the read, its request and its pins are gone, its cached slots are released, one that the other port's read pins being kept from every lookup until that pin drops (R149; DEDUCED, log entry 26), and the context stays (R97, R149); bytes passed to the port that fill no frame yet are sent without the final flag before the response, but for a frame that holds the last byte to be delivered, which is never sent (R97, R148, R184; DEDUCED, log entry 22). That a fault is found also while the engine waits for the port's sending is the model's own choice (log entry 78). A record that is not at fault is not disturbed. That an event or internal step which is not due changes nothing is the model's own choice (log entry 3). -/
def Obligations.RecordsAreExpandedOrFail : Prop :=
  (∀ (p : Port) (e : Expander) (x : ReadState) (c : InService) (y : Context) (s : State), s.Calm →
     s.rcx.expander = some e → e.complete = true → e.req.port = p → e.req.scan = false → s.rdu.reads.get p = some x → (s.port p).inService = some c →
     c.cmd = .readRecord x.limit → s.context p = some y → s.sessionOf p = none → s.msc.turn = none →
     let e' := s.committedObjects x.part
     let z : Context := if x.fallen = false ∧ x.object + 1 ≤ e' then { y with object := x.object + 1, atEnd := e' = x.object + 1 }
       else { y with object := e', marks := s.committedMarks x.part, atEnd := true }
     let result := if x.limit < e.req.raw then HostResult.longRecord else .ok
     let frames := if e.req.limit = 0 then [] else [HostFrame.data c.tag true e.held]
     ∃ t, exec .recordExpanded s = .next t ∧
       t = { s with ports := t.ports, msc := t.msc, rcx := t.rcx, sbm := t.sbm, wvu := t.wvu, rdu := t.rdu } ∧
       t.msc = { s.msc with ctx := s.msc.ctx.set p (some z) } ∧
       t.rdu = { s.rdu with reads := s.rdu.reads.set p none } ∧
       t.rcx = { s.rcx with expander := none, expQueue := s.rcx.expQueue.filter (fun q => q.port != p) } ∧
       (∀ i, (t.slot i).pinnedBy p = false) ∧ t.sbm.slots.length = s.sbm.slots.length ∧
       (∀ i, let z := s.slot i
         z.state = .cached → z.releasing = true → z.pinnedBy p = true → z.pinnedBy (otherPort p) = false → t.slot i = Slot.free) ∧
       t.ports = s.ports.set p (t.port p) ∧ (t.port p).inService = none ∧
       (t.port p).tx = (s.port p).tx ++ frames ++ [.response c.tag result false (some z) (.rawLength e.req.raw)] ∧
       (t.port p).outcome.map (fun o => (o.command, o.tag, o.result, o.detail)) = some (3, c.tag, result, State.outcomeDetail result (.rawLength e.req.raw))) ∧
  (∀ (p : Port) (e : Expander) (x : ScanState) (c : InService) (y : Context) (w : Nat) (s : State),
     s.ports.a.cut = false → s.ports.b.cut = false → s.lsq.state ≠ .standby →
     s.msc.turn = some { job := .verify p, written := w, stopping := false, leaving := none } →
     s.rcx.expander = some e → e.complete = true → e.req.port = p → e.req.scan = true → s.rdu.scans.get p = some x → x.ended = some .complete →
     x.found = [{ object := e.req.object, isMark := false, checked := false }] →
     (s.port p).inService = some c → c.cmd = .verifyScan → s.context p = some y → s.sessionOf p = none →
     let e' := s.committedObjects x.part
     let z : Context := if x.objects ≤ e' then { y with object := x.objects, marks := x.marks, atEnd := x.objects = e' }
       else { y with object := e', marks := s.committedMarks x.part, atEnd := true }
     ∃ t, exec .recordExpanded s = .next t ∧
       t = { s with ports := t.ports, msc := t.msc, rcx := t.rcx, sbm := t.sbm, rdu := t.rdu, hcm := t.hcm, sst := t.sst, lp := t.lp } ∧
       t.context p = some z ∧ t.context (otherPort p) = s.context (otherPort p) ∧ t.msc.turn = none ∧ t.msc.motion = .stopped ∧
       t.rdu = { s.rdu with scans := s.rdu.scans.set p none, acc := none } ∧ (∀ i, (t.slot i).pinnedBy p = false) ∧
       t.ports = s.ports.set p (t.port p) ∧ (t.port p).inService = none ∧
       (t.port p).tx = (s.port p).tx ++ [.response c.tag .ok false (some z) (.scan x.segmentsChecked (e.req.object + 1) none)] ∧
       (t.port p).outcome.map (fun o => (o.command, o.tag, o.result, o.detail)) = some (4, c.tag, .ok, .none)) ∧
  (∀ (e : Expander) (s : State), s.Calm → s.rcx.expander = some e →
     (e.atFault = false → exec .decodeFault s = .next s) ∧
     (∀ p x c, e.atFault = true → e.req.port = p → e.req.scan = false → s.rdu.reads.get p = some x → (s.port p).inService = some c →
       (∃ n, c.cmd = .readRecord n) → s.sessionOf p = none → s.msc.turn = none →
       let frames := if e.held ≠ [] ∧ e.framed + e.held.length < e.req.limit then [HostFrame.data c.tag false e.held] else []
       let sent := s.setPort p { s.port p with tx := (s.port p).tx ++ frames }
       ∃ t, exec .decodeFault s = .next t ∧
         t = { s with ports := t.ports, rcx := t.rcx, sbm := t.sbm, rdu := t.rdu } ∧
         t.rdu = { s.rdu with reads := s.rdu.reads.set p none } ∧
         t.rcx = { s.rcx with expander := none, expQueue := s.rcx.expQueue.filter (fun q => q.port != p) } ∧
         (∀ i, (t.slot i).pinnedBy p = false) ∧
         (∀ n i, (n, i) ∈ x.held → (s.slot i).state = .cached →
           if (s.slot i).pinnedBy (otherPort p) then (t.slot i).invalidated = true else t.slot i = Slot.free) ∧
         t.ports = s.ports.set p (t.port p) ∧ t.port p = (sent.ended p 3 c.tag .decodeFault false (.produced e.produced)).port p))

/-! ## Waits of the buffer and of commands in service -/

/-- SLOT_REQUEST_GRANTED: the oldest waiting request for a Write Record's credit is granted a slot, which enters ASSEMBLING with the session's next segment number, and the credit is given; without a slot to take, or without a request, nothing changes (R102, R103, R104). READ_SLOT_WAIT_ENDS: a Read Record that awaits a read-side slot awaits its turn again once it may take one; until then nothing changes (R113, R143). That an event or internal step which is not due changes nothing is the model's own choice (log entry 3). -/
def Obligations.SlotWaitsEnd : Prop :=
  (∀ (s : State), s.Calm →
     (s.sbm.requests = [] ∨ slotForWriting s.sbm.slots = none → exec .slotRequestGranted s = .next s) ∧
     (∀ p r n c rest i, s.sbm.requests = { row := r, port := p, reason := .credit } :: rest → slotForWriting s.sbm.slots = some i →
       (s.port p).inService = some c → c.cmd = .writeRecord n →
       let x : Slot := { Slot.free with state := .assembling, owner := .row r, header := { blankHeader with part := r, number := (s.row r).nextSegment } }
       exec .slotRequestGranted s = .next
         { s with
           sbm := { s.sbm with requests := rest, slots := s.sbm.slots.set i x }
           rows := s.rows.set r { s.row r with nextSegment := (s.row r).nextSegment + 1 }
           ports := s.ports.set p
             { s.port p with
               tx := (s.port p).tx ++ [.dataRequest c.tag n]
               credit := some n
               inService := some { c with phase := .receiving } } })) ∧
  (∀ (p : Port) (x : ReadState) (s : State), s.Calm → s.msc.activity ≠ .awaitingSlot → s.rdu.reads.get p = some x → x.phase = .awaitingSlot →
     (slotForRead s.sbm.slots p = none → exec (.readSlotWaitEnds p) s = .next s) ∧
     ((slotForRead s.sbm.slots p).isSome = true → exec (.readSlotWaitEnds p) s = .next
       (s.setRdu { s.rdu with reads := s.rdu.reads.set p (some { x with phase := .awaitingTurn }) })))

/-- CLOSING_WAIT_ENDS: a command that waited for its own session's closing proceeds once the row is None, a Locate or Rewind to its turn; where the session failed it ends WRITE_FAULT; while the row is still closing nothing changes (R55). SYNC_COMPLETE: a Sync ends OK once its session has nothing unverified and no slot assembling, and the session is Held, or Closing as it was; until then nothing changes (R53, R132). VERIFIED_ACK: a Verified-mode Write Record ends OK once the segment with its last fragment has verified, and the session's hold timer starts; until then nothing changes (R53, R131). That an event or internal step which is not due changes nothing is the model's own choice (log entry 3). -/
def Obligations.WaitingCommandsEnd : Prop :=
  (∀ (p : Port) (c : InService) (r q : Part) (s : State), s.Calm → (s.port p).inService = some c → c.part = some r →
     (c.phase = .waitClose q → s.holds p q = true → exec (.closingWaitEnds p) s = .next s) ∧
     (c.phase = .waitClose q → s.holds p q = false → (∃ l o, c.cmd = .locate l o) ∨ (∃ l, c.cmd = .rewind l) →
       exec (.closingWaitEnds p) s = .next (s.serving p { c with phase := .tape })) ∧
     (c.phase = .waitFailed → (∀ x, s.sessionOf p = some x → (s.row x).state.isActive = false) → (∃ l o, c.cmd = .locate l o) →
       exec (.closingWaitEnds p) s = .next (s.ended p 5 c.tag .writeFault false .none))) ∧
  (∀ (p : Port) (c : InService) (r : Part) (s : State), s.Calm → (s.port p).inService = some c → c.cmd = .sync → c.phase = .awaitSync r →
     s.sessionOf p = some r →
     (0 < (s.row r).unverified ∨ (s.assemblingOf r).isSome = true → exec (.syncComplete p) s = .next s) ∧
     ((s.row r).unverified = 0 → s.assemblingOf r = none → exec (.syncComplete p) s = .next
       ((s.setRow r { s.row r with state := if (s.row r).state.isActive then .held else (s.row r).state }).ended p 11 c.tag .ok (s.ew r) .none))) ∧
  (∀ (p : Port) (c : InService) (r : Part) (n m : Nat) (s : State), s.Calm → (s.port p).inService = some c → c.cmd = .writeRecord m →
     c.part = some r → c.phase = .awaitVerify r n → s.sessionOf p = some r →
     (s.committedSegments r ≤ n → exec (.verifiedAck p) s = .next s) ∧
     (n < s.committedSegments r → (s.row r).state.isActive = true → (s.row r).closeDue = .no → exec (.verifiedAck p) s = .next
       ((s.setRow r
         { s.row r with
           state := if (s.row r).unverified = 0 then .held else .streaming
           holdTimer := some s.sst.settings.appendHold }).ended p 1 c.tag .ok (s.ew r) .none)))

/-! ## Loading and unloading -/

/-- LOAD by load state: NO_CARTRIDGE in Empty, the load read asked for in Seated, and BUSY in every other state (R22). UNLOAD by load state: refused or ended at once; in Draining, Rewinding, Closing and Unthreading, and in Waking where a host's unload is noted, joined to the unload in progress; noted in Waking, waking the drive from Standby, or begun from Ready, where with no session, fill or scan at work the machine enters Draining; in Faulted taken by the forced path, to Closing with a held copy and to Unthreading otherwise; from Seated the cartridge is ejected and the command ends OK (R31, R32, R35, R36). -/
def Obligations.LoadAndUnloadByState : Prop :=
  (∀ (s : State), s.TakesLibrary → s.Settled →
     (s.lsq.state = .empty → exec .load s = .next (s.libraryEnded 1 .noCartridge .none)) ∧
     (s.lsq.state ≠ .empty → s.lsq.state ≠ .seated → exec .load s = .next (s.libraryEnded 1 .busy .none)) ∧
     (s.lsq.state = .seated → exec .load s = .next
       { s with
         lsq := { s.lsq with state := .tagRead, load := some .going }
         lp := { s.lp with receiver := .hunting, outstanding := some .load }
         dtc := { s.dtc with pendLoad := some { since := s.clock, request := .loadRead } } })) ∧
  (∀ (s : State), s.TakesLibrary → s.Settled →
     (s.lsq.state = .empty → exec .unload s = .next (s.libraryEnded 2 .noCartridge .none)) ∧
     (s.lsq.state = .ejected → exec .unload s = .next (s.libraryEnded 2 .ok .none)) ∧
     (s.lsq.state = .tagRead ∨ s.lsq.state = .threading ∨ s.lsq.state = .tensioning ∨ s.lsq.state = .recovering ∨ s.lsq.state = .cleaning →
       exec .unload s = .next (s.libraryEnded 2 .notReady .none)) ∧
     (s.lsq.holder = .nobody → s.rdu.scans = { a := none, b := none } → s.msc.turn = none →
       let held := fun (x : LoadState) (h : Holder) (j : Bool) => exec .unload s = .next
         { s with
           lsq := { s.lsq with state := x, holder := h, joined := j }
           lp := { s.lp with receiver := .hunting, outstanding := some .unload } }
       (s.lsq.state = .waking → held .waking .library s.lsq.joined) ∧
       (s.lsq.state = .standby → held .waking .library s.lsq.joined) ∧
       (s.lsq.state = .ready → (∀ r, (s.row r).state = .none) → held .draining .library s.lsq.joined)) ∧
     (s.rdu.scans = { a := none, b := none } →
       s.lsq.state = .draining ∨ s.lsq.state = .rewinding ∨ s.lsq.state = .closing ∨ s.lsq.state = .unthreading ∨
         (s.lsq.state = .waking ∧ ∃ p, s.lsq.holder = .port p) →
       exec .unload s = .next
         { s with lsq := { s.lsq with joined := true }, lp := { s.lp with receiver := .hunting, outstanding := some .unload } }) ∧
     (s.lsq.state = .faulted → s.lsq.holder = .nobody →
       let lsq := { s.lsq with holder := .library, forced := true }
       let lp := { s.lp with receiver := .hunting, outstanding := some .unload }
       (s.lsq.kind = .data → s.dtc.copy.isSome = true → s.dtc.pendCheckpoint = none → exec .unload s = .next
         { s with
           lsq := { lsq with state := .closing }
           lp := lp
           dtc := { s.dtc with interval := none, pendCheckpoint := some { since := s.clock, closing := true } }
           clock := s.clock + 1 }) ∧
       (s.lsq.kind ≠ .data ∨ s.dtc.copy = none → (∀ r, (s.row r).state = .none) → ∃ t, exec .unload s = .next t ∧
         t = { s with
           lsq := { lsq with state := .unthreading, destination := .ejected, threadTimer := none }, lp := lp
           msc := { s.msc with ctx := { a := none, b := none } }, dtc := { s.dtc with interval := none }, sbm := t.sbm } ∧
         ∀ i, (t.slot i).readSide = true → (t.slot i).invalidated = true)) ∧
     (s.lsq.state = .seated → s.lsq.holder = .nobody → s.lsq.load = none → s.lsq.checkpointMissed = false →
       s.ports.a.inService = none → s.ports.b.inService = none →
       ∃ t, exec .unload s = .next t ∧ t = { s with lsq := t.lsq, lp := t.lp, dtc := t.dtc, hcm := t.hcm, sst := { s.sst with meter := s.hcm.meter } } ∧
         t.lsq.state = .ejected ∧ t.lsq.holder = .nobody ∧ t.dtc.copy = none ∧ t.hcm = { s.hcm with openRecord := none, history := [], run := .none } ∧
         t.lp = { s.lp with receiver := .hunting, tx := s.lp.tx ++ [{ result := .ok, code := 2, detail := .none }], unsent := some (s.lp.tx.length + 1) }))

/-- PORT_CUT: the command in service, a Locate that awaits its turn for one, and every waiting command are answered ABORTED_BY_CUT in order without an outcome record, and the library receives CUT_DONE; the other port is not touched (R58, R59). A Cut that meets a relocation of the command's turn lets it run to its arrival (R70), and the copy to which a retry takes the head back is given up, since the turn ends there (DEDUCED, log entry 15). A Cut that meets a Verify Scan's copy being read removes the scan's expansions at once (R98) and waits for the copy's end (R58, R154). A waiting Sync's answer carries the EW flag of its context's partition (R120); that the answer to any other waiting command carries a false one, a Write Record's, a Write Marks' or a Truncate's too, which has resolved no partition yet, is the model's own choice (log entry 79). -/
def Obligations.CutsAnswerThePort : Prop :=
  ∀ (p : Port) (n : Nat) (s : State), s.TakesLibrary → (p = .a ∧ n = 0) ∨ (p = .b ∧ n = 1) →
    let aborted := fun (tag : Nat) (ew : Bool) => HostFrame.response tag .abortedByCut ew (s.context p) .none
    (∀ head, s.Calm → s.sessionOf p = none → s.rdu.fills.get p = .none → s.msc.turn = none ∨ s.rdu.acc = none →
      ((s.port p).inService = none ∧ head = []) ∨
        (∃ c l o, (s.port p).inService = some c ∧ c.cmd = .locate l o ∧ c.phase = .tape ∧ s.msc.turn = none ∧ head = [aborted c.tag false]) →
      exec (.portCut n) s = .next
        { s with
          ports := s.ports.set p
            { s.port p with
              tx := (s.port p).tx ++ head ++ (s.port p).waiting.map (fun q => aborted q.tag (cmdCode q.cmd == 11 && s.contextEw p))
              inService := none, waiting := [], credit := none, cut := false }
          lp := { s.lp with receiver := .hunting, tx := s.lp.tx ++ [{ result := .cutDone, code := 3, detail := .none }], unsent := some (s.lp.tx.length + 1) } }) ∧
    (∀ c l o g w start target hit next, s.Calm → s.sessionOf p = none → s.rdu.fills.get p = .none → (s.port p).waiting = [] →
      (s.port p).inService = some c → c.cmd = .locate l o → c.phase = .tape →
      s.msc.turn = some { job := .position p g, written := w, stopping := false, leaving := none } →
      s.msc.activity = .relocating start target hit next → (∀ a, s.rdu.acc = some a → a.slot = none) →
      exec (.portCut n) s = .next
        { s with
          ports := s.ports.set p
            { s.port p with tx := (s.port p).tx ++ [aborted c.tag false], inService := none, credit := none, cut := false }
          msc := { s.msc with turn := some { job := .position p g, written := w, stopping := true, leaving := none } }
          rdu := { s.rdu with acc := none }
          lp := { s.lp with
            receiver := .hunting, tx := s.lp.tx ++ [{ result := .cutDone, code := 3, detail := .none }], unsent := some (s.lp.tx.length + 1) } }) ∧
    (∀ w, s.Settled → s.msc.turn = some { job := .verify p, written := w, stopping := false, leaving := none } → s.rdu.acc.isSome = true →
      s.msc.activity = .reading → exec (.portCut n) s = .next
        { s with
          ports := s.ports.set p { s.port p with cut := true }
          msc := { s.msc with turn := some { job := .verify p, written := w, stopping := true, leaving := none } }
          rcx := { s.rcx with
            expQueue := s.rcx.expQueue.filter (fun q => q.port != p)
            expander := s.rcx.expander.bind (fun e => if e.req.port = p then none else some e) }
          lp := { s.lp with receiver := .hunting, outstanding := some (.portCut p) } })

/-! ## Resets -/

/-- The part right after power-on with an empty drive and a Settings Store that has never been written: what the spec gives each block (R20, R44, R46, R47, R51, R61, R72, R73, R85, R99, R117, R136, R140, R156, R170, R185, R188, R190, R192, R193). POWER_ON: everything takes its power-on value, what the Settings Store keeps is restored, and the load machine is in Empty, Seated, or Unthreading toward Seated where the threaded indication shows the leader out (R20, R170, R192, R193); the meter below its thresholds, no clean call rises. The model's own choices in this: that the part after reset is one with an empty drive (log entry 1), that the cartridge kind is none at power-on with a threaded cartridge too (log entry 77), that a session row in None has first object 0 (log entry 81), that the write tab is held released without a cartridge (log entry 6), that the reset line stands as it did (log entry 7), and that the clock and the counter of free values, which the spec does not have, go on (log entries 8 and 9). -/
def Obligations.ResetAndPowerOn : Prop :=
  (let s := State.reset
   s.lsq.state = .empty ∧ s.lsq.kind = .absent ∧ s.lsq.holder = .nobody ∧ s.lsq.retries = 0 ∧ s.lsq.writeFault = false ∧ s.lsq.destination = .ejected ∧
   (∀ p, (s.port p).tx = [] ∧ (s.port p).inService = none ∧ (s.port p).waiting = [] ∧ (s.port p).outcome = none ∧ (s.port p).credit = none ∧
     (s.port p).attention = { Attention.empty with deviceReset := true } ∧
     (s.port p).sector = [some { part := 0, right := .readWrite }, none, none, none, none, none, none] ∧
     (s.port p).options = { compression := true, verified := false, readAhead := true } ∧ s.context p = none ∧
     s.rcx.intake.get p = .empty ∧ s.rdu.reads.get p = none ∧ s.rdu.fills.get p = .none) ∧
   (∀ r, s.row r = Row.empty) ∧ s.msc.head = { lane := 0, coord := 0 } ∧ s.msc.motion = .stopped ∧ s.msc.turn = none ∧ s.msc.lastServed = .a ∧
   s.msc.burst = 0 ∧ s.msc.landmark = none ∧ (∀ i, s.slot i = Slot.free) ∧ s.sbm.slots.length = 32 ∧ s.wvu.window = [] ∧ s.wvu.rewrites = [] ∧
   s.wvu.completion = [] ∧ s.wvu.backhitch = none ∧ s.wvu.rate.level = .l3 ∧ s.dtc.copy = none ∧ s.dtc.reader = none ∧ s.dtc.interval = none ∧
   s.dtc.atRisk = false ∧ s.hcm.meter = 0 ∧ s.hcm.level = .none ∧ s.hcm.history = [] ∧
   s.sst.settings = { ewReserve := 600, appendHold := 20, checkpointInterval := 60, cleaningInterval := 400, qualityThreshold := 30, divisor := 16 } ∧
   s.sst.causes = { powerOn := true, resetLine := false, resetCommand := false } ∧ s.lp.divisor = 16 ∧ s.lp.outstanding = none ∧ s.lp.receiver = .hunting ∧
   s.lp.summary = { Summary.empty with resetDone := true }) ∧
  (∀ (c : Option Tag) (h b : Bool) (s : State), s.sst.meter < s.sst.settings.cleaningInterval * 100000 →
     exec (.powerOn c h b) s = .next
       { State.reset with
         pending := s.pending, resetLine := s.resetLine, clock := s.clock, free := s.free
         lsq := if c.isNone then Lsq.powerOn .empty .ejected else if h then Lsq.powerOn .unthreading .seated else Lsq.powerOn .seated .ejected
         cart := { tag := c, writeTab := c.isSome && b }
         ports := { a := PortState.powerOn s.sst.grants.a, b := PortState.powerOn s.sst.grants.b }
         hcm := Hcm.restored s.sst.meter s.sst.level s.sst.reason
         sst := { s.sst with causes := { powerOn := true, resetLine := false, resetCommand := false } }
         lp := Lp.powerOn s.sst.settings.divisor })

/-- DEVICE_RESET and RESET_LINE bring every block to its reset value at once: what survives is the cartridge, the settings and grants, the head's condition, the port options, the clean call and the speed level; the cause is added, RESET_DONE is raised, the library's reset is answered OK, and the line, when it is the cause, is asserted; RESET_LINE_RELEASE ends that (R193, R194). The transport is taken to be standing still, with no movement unreported. The load machine after a Device Reset, by its state before (R37): TagRead is Seated again, a threaded data cartridge takes the reset path through Tensioning, a threaded cleaning cartridge and a failed threading are unthreaded, and the other states stay; holder, retries, timer and load in progress are cleared. That a divisor whose response has not been sent is forgotten is read from R185 and R194 (DEDUCED, log entry 23). -/
def Obligations.DeviceResetsEverything : Prop :=
  (∀ (s : State),
     exec .resetLineRelease s = .next { s with resetLine := false } ∧
     (s.resetLine = false → s.moving = false → s.msc.travel = 0 →
       let t : State :=
         { State.reset with
           pending := s.pending, clock := s.clock, free := s.free, cart := s.cart, lsq := State.resetLoad s.lsq
           ports := { a := { PortState.powerOn s.ports.a.sector with options := s.ports.a.options }, b := { PortState.powerOn s.ports.b.sector with options := s.ports.b.options } }
           msc := { Msc.powerOn with head := s.msc.head }
           wvu := { State.reset.wvu with rate := { Rate.powerOn with level := s.wvu.rate.level } }
           hcm := { s.hcm with openRecord := none, run := .none } }
       let lp : Lp :=
         { s.lp with
           receiver := .hunting, newDivisors := [], tx := [], outstanding := none, unsent := none
           summary := { s.lp.summary with resetDone := true }, breakDue := s.lp.breakDue || !s.lp.summary.resetDone }
       exec .deviceReset s = .next
         { t with
           sst := { s.sst with causes := { s.sst.causes with resetCommand := true } }
           lp := { lp with tx := [{ result := .ok, code := 11, detail := .none }] } } ∧
       exec .resetLine s = .next
         { t with sst := { s.sst with causes := { s.sst.causes with resetLine := true } }, lp := lp, resetLine := true })) ∧
  (∀ (s : State), s.resetLine = false → ∃ t, exec .deviceReset s = .next t ∧
     t.lsq.kind = s.lsq.kind ∧ t.lsq.holder = .nobody ∧ t.lsq.retries = 0 ∧ t.lsq.threadTimer = none ∧ t.lsq.load = none ∧
     (s.lsq.state = .empty ∨ s.lsq.state = .seated ∨ s.lsq.state = .ejected → t.lsq.state = s.lsq.state) ∧
     (s.lsq.state = .tagRead → s.lsq.resetPath = false → t.lsq.state = .seated) ∧
     (s.lsq.state = .threading → t.lsq.state = .unthreading ∧ t.lsq.destination = .seated) ∧
     (s.lsq.state = .unthreading → t.lsq.state = .unthreading ∧ t.lsq.destination = s.lsq.destination) ∧
     (s.lsq.state = .cleaning → t.lsq.state = .unthreading ∧ t.lsq.destination = .ejected) ∧
     (s.lsq.state = .tensioning ∨ s.lsq.state = .recovering ∨ s.lsq.state = .ready ∨ s.lsq.state = .standby ∨ s.lsq.state = .waking ∨
       s.lsq.state = .draining ∨ s.lsq.state = .rewinding ∨ s.lsq.state = .closing ∨ s.lsq.state = .faulted ∨
       (s.lsq.state = .tagRead ∧ s.lsq.resetPath = true) →
       (s.lsq.kind = .cleaning → t.lsq.state = .unthreading ∧ t.lsq.destination = .ejected) ∧
       (s.lsq.kind ≠ .cleaning → t.lsq.state = .tensioning ∧ t.lsq.resetPath = true)))

/-- Where a moving transport stops is left open by R70 within bounds, and they hold whatever the free value is: a relocation to a target ahead on the lane stops on that lane between its start and its target, any other on one of the two lanes between the two coordinates, and a streaming head on its lane at or beyond where it was; the movement is counted up to the stop (R70, R71; log entry 9 names the free value). A Device Reset discards the open lane record, but for a relocation to another lane that it stops past the lateral move, which has finished the record (R69, R174). -/
def Obligations.StopsStayInBounds : Prop :=
  ∀ (s : State), s.resetLine = false → ∃ t, exec .deviceReset s = .next t ∧
    (∀ start target hit next, s.msc.motion = .relocating → s.msc.activity = .relocating start target hit next →
      (hit = true → t.msc.head.lane = target.lane) ∧ (t.msc.head.lane = start.lane ∨ t.msc.head.lane = target.lane) ∧
      min start.coord target.coord ≤ t.msc.head.coord ∧ t.msc.head.coord ≤ max start.coord target.coord ∧
      (t.free = s.free + 1) ∧ (s.hcm.meter ≤ meterMax → s.hcm.meter ≤ t.hcm.meter ∧ t.hcm.meter ≤ s.hcm.meter + 2 * distance start.coord target.coord)) ∧
    (∀ start target hit next r, s.msc.motion = .relocating → s.msc.activity = .relocating start target hit next → start.lane ≠ target.lane →
      s.hcm.openRecord = some r → t.hcm.openRecord = none ∧
        t.hcm.history = if t.msc.head.lane = target.lane ∧ 64 ≤ r.processed / 16 then
          (if s.hcm.history.length < 3 then s.hcm.history else s.hcm.history.drop 1) ++ [r] else s.hcm.history) ∧
    (∀ o, s.msc.motion = .streaming → s.msc.activity = .seeking → s.msc.head = placeOf s.msc.head.lane o → o < 48000 →
      t.msc.head.lane = s.msc.head.lane ∧ o ≤ offsetOf t.msc.head.lane t.msc.head.coord ∧ t.msc.head.coord < 48000) ∧
    (s.moving = false → t.msc.head = s.msc.head ∧ t.free = s.free)

/-- PORT_RESET discards the port's commands and frames without a response and returns its options to their defaults; its fill and read are none, a record not yet in its stored form and a read's record leave the engines, and its read-side slots are freed; its sector, attention set, outcome record and context stay, and nothing of the other port changes: its intake, engines, read, fill, scan, slot requests and every slot it alone has to do with (R44, R60, R112, R190). With no session and no turn in progress nothing else changes but a Port Cut of the port, which ends CUT_DONE (R60). An open session is closed, a Failed row returns to None (R59, R60), and a session whose closing waits for a record that awaits a slot, with nothing unverified, is Held until then, its write gone (R53, R109), with the hold timer left stopped by the model's own choice (log entry 87); a positioning turn in a relocation runs to its arrival (R70, R83). That a slot of the port which the other port's read pins is freed when that pin drops is read from R60 and R115 (DEDUCED, log entry 26). -/
def Obligations.PortResetDiscards : Prop :=
  (∀ (p : Port) (s : State), s.Calm → s.msc.turn = none → s.sessionOf p = none → (∀ r n, s.rdu.fills.get p ≠ .running r n) →
    let q := otherPort p
    ∃ t, exec (.portReset p) s = .next t ∧
      t = { s with ports := s.ports.set p (t.port p), rcx := t.rcx, sbm := t.sbm, rdu := t.rdu, lp := t.lp } ∧
      t.port p = { s.port p with rx := [], tx := [], credit := none, inService := none, waiting := [], options := Options.default, cut := false } ∧
      t.rdu.fills.get p = .none ∧ t.rdu.reads.get p = none ∧
      t.rdu.fills.get q = s.rdu.fills.get q ∧ t.rdu.reads.get q = s.rdu.reads.get q ∧ t.rdu.scans.get q = s.rdu.scans.get q ∧
      t.rcx.intake.get q = s.rcx.intake.get q ∧
      t.rcx.packQueue.filter (· == q) = s.rcx.packQueue.filter (· == q) ∧
      t.rcx.expQueue.filter (fun e => e.port == q) = s.rcx.expQueue.filter (fun e => e.port == q) ∧
      (∀ k, s.rcx.packer = some k → k.port = q → t.rcx.packer = some k) ∧ (∀ e, s.rcx.expander = some e → e.req.port = q → t.rcx.expander = some e) ∧
      (∀ c n, (s.port p).inService = some c → c.cmd = .writeRecord n → c.phase = .awaitSlot ∨ c.phase = .receiving ∨ c.phase = .compressing →
        t.rcx.intake.get p = .empty ∧ p ∉ t.rcx.packQueue ∧ ∀ k, t.rcx.packer = some k → k.port ≠ p) ∧
      (∀ c, (s.port p).inService = some c → c.phase = .reading →
        (∀ e ∈ t.rcx.expQueue, e.port ≠ p) ∧ (∀ e, t.rcx.expander = some e → e.req.port ≠ p) ∧ (c.cmd = .verifyScan → t.rdu.scans.get p = none)) ∧
      t.sbm.slots.length = s.sbm.slots.length ∧ t.sbm.placing = s.sbm.placing ∧
      t.sbm.requests.filter (fun e => e.port == q) = s.sbm.requests.filter (fun e => e.port == q) ∧
      (∀ i, let x := s.slot i
        (t.slot i).pinnedBy p = false ∧
        (x.readSide = true → x.owner = .port p → if x.pinnedBy q then (t.slot i).invalidated = true ∧ (t.slot i).pinnedBy q = true else t.slot i = Slot.free) ∧
        (x.pinnedBy p = false → x.readSide = false ∨ x.owner ≠ .port p → x.copying ≠ some p → t.slot i = x)) ∧
      t.lp = if s.lp.outstanding = some (.portCut p) then
          { s.lp with outstanding := none, tx := s.lp.tx ++ [{ result := .cutDone, code := 3, detail := .none }], unsent := some (s.lp.tx.length + 1) } else s.lp) ∧
  (∀ (p : Port) (r : Part) (s : State), s.Calm → s.msc.turn = none → s.sessionOf p = some r → (s.port p).inService = none → s.rdu.fills.get p = .none →
    ((s.row r).state = .streaming ∨ (s.row r).state = .held → s.placingFor r = false → s.assemblingOf r = none → 0 < (s.row r).unverified →
      ∃ t, exec (.portReset p) s = .next t ∧ t.rows = s.rows.set r { s.row r with state := .closing, holdTimer := none, closeDue := .no } ∧
        t.port p = { s.port p with rx := [], tx := [], credit := none, waiting := [], options := Options.default, cut := false }) ∧
    ((s.row r).state = .failed → ∃ t, exec (.portReset p) s = .next t ∧ t.rows = s.rows.set r Row.empty ∧
      (t.port p).attention = (s.port p).attention)) ∧
  (∀ (p : Port) (r : Part) (c : InService) (n : Nat) (s : State), s.Calm → s.msc.turn = none → s.sessionOf p = some r → (s.port p).inService = some c →
    c.cmd = .writeRecord n → c.phase = .placing → s.rdu.fills.get p = .none → (s.row r).state = .streaming → (s.row r).unverified = 0 → s.placingFor r = true →
    ∃ t, exec (.portReset p) s = .next t ∧ t.rows = s.rows.set r { s.row r with state := .held, closeDue := .afterPlacing } ∧
      t.port p = { s.port p with rx := [], tx := [], credit := none, inService := none, waiting := [], options := Options.default, cut := false } ∧
      t.rcx = s.rcx ∧ t.sbm.placing = s.sbm.placing ∧ t.sbm.requests = s.sbm.requests) ∧
  (∀ (p : Port) (g : Goal) (c : InService) (w : Nat) (start target : Place) (hit : Bool) (next : Next) (s : State), s.Calm → s.sessionOf p = none →
    s.rdu.fills.get p = .none → s.rdu.acc = none → (s.port p).inService = some c → c.phase = .tape → c.cmd ≠ .truncate →
    s.msc.turn = some { job := .position p g, written := w, stopping := false, leaving := none } → s.msc.activity = .relocating start target hit next →
    ∃ t, exec (.portReset p) s = .next t ∧ (t.port p).inService = none ∧
      t.msc = { s.msc with turn := some { job := .position p g, written := w, stopping := true, leaving := none } })

/-! ## The cartridge, the leader and tension -/

/-- CARTRIDGE_INSERTED in Empty seats the cartridge with its tag and write tab (R19, R21); CARTRIDGE_REMOVED from Ejected empties the drive, and from any other state but Empty the cartridge has been pulled: the machine is Empty with power-on values, CARTRIDGE_PULLED is raised, the copy is discarded and both contexts are Lost (R21, R73). Every port command in service that needs the transport then ends TRANSPORT_FAULT, a host's Unload Request and an outstanding Load or Unload end NO_CARTRIDGE, and an open session is lost with reason TRANSPORT_FAULT, a Failed one among them: its deferred fault is added to its holder's attention set, and its row is None (R21, R45, R56). WRITE_TAB_CHANGE is sensed with a cartridge present: with no session open nothing but the tab as sensed changes, and a session whose partition has become protected, with no write in service and no record being placed, is closed (R19). That the tab reads as released without a cartridge is the model's own choice (log entry 6). -/
def Obligations.CartridgesAndTabs : Prop :=
  (∀ (s : State),
     (∀ tag b, s.lsq.state = .empty → exec (.cartridgeInserted tag b) s = .next
       { s with lsq := { s.lsq with state := .seated, kind := .absent }, cart := { tag := some tag, writeTab := b } }) ∧
     (s.Settled → s.lsq.state = .ejected → s.dtc.reader = none → exec .cartridgeRemoved s = .next
       { s with lsq := { s.lsq with state := .empty, kind := .absent }, cart := { tag := none, writeTab := false } }) ∧
     (s.Calm → s.lsq.state ≠ .ejected → s.lsq.state ≠ .empty → ∃ t, exec .cartridgeRemoved s = .next t ∧
       t.lsq = Lsq.powerOn .empty .ejected ∧ t.cart = { tag := none, writeTab := false } ∧ t.dtc.copy = none ∧ t.dtc.reader = none ∧
       t.dtc.interval = none ∧ t.context .a = none ∧ t.context .b = none ∧ t.msc.turn = none ∧ t.lp.summary.cartridgePulled = true ∧
       (∀ p c, (s.port p).inService = some c → c.phase = .tape ∨ (c.phase = .awaitSlot ∧ c.cmd = .truncate) ∨
           (c.phase = .reading ∧ c.cmd = .verifyScan ∧ s.rdu.reads.get p = none) ∨
           (c.phase = .reading ∧ ∃ x, s.rdu.reads.get p = some x ∧ x.phase ≠ .delivering) →
         (t.port p).inService = none ∧ t.rdu.reads.get p = none ∧
         (t.port p).outcome.map (fun o => (o.command, o.tag, o.result)) = some (cmdCode c.cmd, c.tag, .transportFault)) ∧
       (∀ p c, (s.port p).inService = some c → c.phase = .unloading →
         (t.port p).inService = none ∧ (t.port p).outcome.map (fun o => (o.command, o.tag, o.result)) = some (cmdCode c.cmd, c.tag, .noCartridge)) ∧
       (∀ c, s.lp.outstanding = some c → c = .load ∨ c = .unload → t.lp.outstanding = none ∧
         t.lp.tx = s.lp.tx ++ [{ result := .noCartridge, code := if c = .load then 1 else 2, detail := .none }] ∧
         t.lp.unsent = some (s.lp.tx.length + 1)) ∧
       (∀ p r, s.sessionOf p = some r → (∀ q, s.holds p q = true → q = r) →
         (∀ c, (s.port p).inService = some c → c.phase ≠ .tape ∧ c.phase ≠ .reading) →
         ((s.row r).state.isOpen = true → t.row r = Row.empty ∧
           (t.port p).attention = (s.port p).attention.addFault { part := r, firstLost := s.firstLost r, reason := .transportFault }) ∧
         (∀ f, (s.row r).state = .failed → (s.row r).fault = some f → t.row r = Row.empty ∧
           (t.port p).attention = (s.port p).attention.addFault f)))) ∧
  (∀ (b : Bool) (s : State), s.Calm → s.lsq.state ≠ .empty →
     ((∀ r, (s.row r).state.isActive = false) → exec (.writeTabChange b) s = .next { s with cart := { s.cart with writeTab := b } }) ∧
     (∀ r, b = true → (s.row r).state.isActive = true → (∀ q, q ≠ r → (s.row q).state.isActive = false) → s.holderWriting r = false →
       s.placingFor r = false → s.assemblingOf r = none → 0 < (s.row r).unverified → exec (.writeTabChange b) s = .next
         { s with
           cart := { s.cart with writeTab := b }
           rows := s.rows.set r { s.row r with state := .closing, holdTimer := none, closeDue := .no } }))

/-- LEADER_CAPTURED in Threading takes up tension with the head at lane 0, coordinate 0 (R23, R61, R74); THREAD_TIMER_EXPIRY starts a fresh capture up to two times, and then unthreads the cartridge with the Load to end THREAD_FAULT and the cleaning run given up (R23, R181). LEADER_RELEASED in Unthreading enters the destination: Seated with no kind, or Ejected, where the copy is discarded, the quality history emptied and the meter stored (R36, R172, R174). In Ejected an outstanding Unload ends OK, or CM_FAULT where the closing checkpoint was missed, and a Load THREAD_FAULT or CLEANED as it was to end; a host's Unload Request ends OK or TAG_FAULT, and HOST_EJECT is raised where no library Unload had joined it (R36). A release from Faulted reports the travel from the head's coordinate to 0 (R71). Elsewhere nothing changes. That the destination returns to Ejected on entry to Seated is read from R20 (DEDUCED, log entry 24). That an event or internal step which is not due changes nothing is the model's own choice (log entry 3). -/
def Obligations.LeadersAreThreadedAndReleased : Prop :=
  (∀ (s : State), s.lsq.state = .threading →
     exec .leaderCaptured s = .next
       { s with
         lsq := { s.lsq with state := .tensioning, threadTimer := none }
         msc := { s.msc with head := { lane := 0, coord := 0 }, motion := .stopped, landmark := none } } ∧
     (s.lsq.threadTimer.isSome = true → s.lsq.retries < 2 → exec .threadTimerExpiry s = .next
       { s with lsq := { s.lsq with retries := s.lsq.retries + 1, threadTimer := some 8 } }) ∧
     (s.lsq.threadTimer.isSome = true → 2 ≤ s.lsq.retries → s.lsq.load = some .going → (∀ r, (s.row r).state = .none) →
       ∃ t, exec .threadTimerExpiry s = .next t ∧ t = { s with lsq := t.lsq, msc := t.msc, sbm := t.sbm, dtc := t.dtc, hcm := t.hcm } ∧
         t.lsq = { s.lsq with state := .unthreading, destination := .ejected, threadTimer := none, load := some .endsThreadFault } ∧
         t.msc = { s.msc with ctx := { a := none, b := none } } ∧ t.dtc = { s.dtc with interval := none } ∧ t.hcm = { s.hcm with run := .none })) ∧
  (∀ (s : State),
     (s.lsq.state ≠ .unthreading → exec .leaderReleased s = .next s) ∧
     (s.lsq.state = .unthreading → s.lsq.forced = false → s.lsq.destination = .seated → exec .leaderReleased s = .next
       { s with lsq := { s.lsq with state := .seated, kind := .absent, destination := .ejected, threadTimer := none, load := none, joined := false } }) ∧
     (s.lsq.state = .unthreading → s.lsq.destination = .ejected → s.hcm.openRecord = none →
       let quiet := s.ports.a.inService = none ∧ s.ports.b.inService = none
       let answered := fun (result : LibResult) (code : Nat) (detail : LibDetail) =>
         { s.lp with outstanding := none, tx := s.lp.tx ++ [{ result := result, code := code, detail := detail }], unsent := some (s.lp.tx.length + 1) : Lp }
       let unloaded := if s.lsq.checkpointMissed then LibResult.cmFault else .ok
       let ejects := fun (meter : Nat) (head : Place) (more : State → Prop) => ∃ t, exec .leaderReleased s = .next t ∧
         t = { s with
           ports := t.ports, lsq := t.lsq, dtc := t.dtc, msc := { s.msc with head := head }
           hcm := { s.hcm with meter := meter, history := [], run := .none }, sst := { s.sst with meter := meter }, lp := t.lp } ∧
         t.lsq.state = .ejected ∧ t.lsq.kind = s.lsq.kind ∧ t.lsq.holder = .nobody ∧ t.lsq.load = none ∧ t.lsq.joined = false ∧
         t.lsq.checkpointMissed = false ∧ t.lsq.writeFault = false ∧ t.dtc.copy = none ∧ t.dtc.interval = none ∧ more t
       (s.lsq.forced = false →
         (quiet → s.lsq.load = none → s.lp.outstanding = some .unload → s.lsq.holder = .library →
           ejects s.hcm.meter s.msc.head (fun t => t.ports = s.ports ∧ t.lp = answered unloaded 2 .none)) ∧
         (quiet → s.lsq.load = some .endsThreadFault → s.lp.outstanding = some .load → s.lsq.holder = .nobody →
           ejects s.hcm.meter s.msc.head (fun t => t.ports = s.ports ∧ t.lp = answered .threadFault 1 .none)) ∧
         (∀ n, quiet → s.lsq.load = some (.endsCleaned n) → s.lp.outstanding = some .load → s.lsq.holder = .nobody →
           ejects s.hcm.meter s.msc.head (fun t => t.ports = s.ports ∧ t.lp = answered .cleaned 1 (.passes n))) ∧
         (∀ p c, (s.port p).inService = some c → c.cmd = .unloadRequest → c.phase = .unloading → (s.port (otherPort p)).inService = none →
           s.lsq.load = none → s.lsq.holder = .port p → ejects s.hcm.meter s.msc.head (fun t =>
             t.ports = s.ports.set p (t.port p) ∧
             t.port p = ((s.setDtc t.dtc).ended p 13 c.tag (if s.lsq.checkpointMissed then .tagFault else .ok) false .none).port p ∧
             (s.lsq.joined = false → s.lp.outstanding ≠ some .unload → t.lp =
               { s.lp with summary := { s.lp.summary with hostEject := true }, breakDue := s.lp.breakDue || !s.lp.summary.hostEject }) ∧
             (s.lsq.joined = true → s.lp.outstanding = some .unload → t.lp = answered unloaded 2 .none)))) ∧
       (s.lsq.forced = true → s.MeterQuiet s.msc.head.coord → quiet → s.lsq.load = none → s.lp.outstanding = some .unload → s.lsq.holder = .library →
         ejects (min 4294967295 (s.hcm.meter + 2 * s.msc.head.coord)) { lane := s.msc.head.lane, coord := 0 }
           (fun t => t.ports = s.ports ∧ t.lp = answered unloaded 2 .none))))

/-- TENSION_SETTLED: Tensioning goes on to the re-read of the reset path, to Cleaning, to Ready with a current copy, or to Recovering (R24, R26, R37); Waking goes to Ready, or, with an unload holder set, be it the library or a port, to Draining (R30). Elsewhere nothing changes. That an event or internal step which is not due changes nothing is the model's own choice (log entry 3). -/
def Obligations.TensionSettles : Prop :=
  ∀ (s : State), s.Calm →
    (s.lsq.state ≠ .tensioning → s.lsq.state ≠ .waking → exec .tensionSettled s = .next s) ∧
    (s.lsq.state = .tensioning → s.lsq.resetPath = true → exec .tensionSettled s = .next
      { s with lsq := { s.lsq with state := .tagRead }, dtc := { s.dtc with pendLoad := some { since := s.clock, request := .reread } } }) ∧
    (s.lsq.state = .tensioning → s.lsq.resetPath = false → s.lsq.kind = .cleaning → exec .tensionSettled s = .next
      { s with lsq := { s.lsq with state := .cleaning }, msc := { s.msc with libWork := some .cleaningRun } }) ∧
    (s.lsq.state = .tensioning → s.lsq.resetPath = false → s.lsq.kind = .data → s.copyCurrent = false → exec .tensionSettled s = .next
      { s with
        lsq := { s.lsq with state := .recovering }
        msc := { s.msc with libWork := some .recoveryScan }
        dtc := { s.dtc with interval := none } }) ∧
    (s.lsq.state = .tensioning → s.lsq.resetPath = false → s.lsq.kind = .data → s.copyCurrent = true → s.lsq.load = some .going →
      s.lp.outstanding = some .load → exec .tensionSettled s = .next
        { s with
          lsq := { s.lsq with state := .ready, writeFault := false, load := none }
          msc := { s.msc with ctx := { a := some { logical := 1, object := 0, marks := 0, atEnd := false }, b := some { logical := 1, object := 0, marks := 0, atEnd := false } } }
          ports := { a := { s.ports.a with attention := { s.ports.a.attention with mediumChanged := true } }, b := { s.ports.b with attention := { s.ports.b.attention with mediumChanged := true } } }
          lp := { s.lp with outstanding := none, tx := s.lp.tx ++ [{ result := .ok, code := 1, detail := .none }], unsent := some (s.lp.tx.length + 1) }
          dtc := { s.dtc with interval := if s.sst.settings.checkpointInterval = 0 then none else some s.sst.settings.checkpointInterval } }) ∧
    (s.lsq.state = .waking → s.lsq.holder = .nobody → s.dtc.interval.isSome = true → exec .tensionSettled s = .next
      { s with lsq := { s.lsq with state := .ready }, msc := { s.msc with motion := .stopped } }) ∧
    (s.lsq.state = .waking → s.lsq.holder = .library ∨ (∃ p, s.lsq.holder = .port p) → s.msc.turn = none → s.rdu.scans = { a := none, b := none } →
      (∀ r, (s.row r).state.isActive = false) → exec .tensionSettled s = .next
        { s with lsq := { s.lsq with state := .draining }, msc := { s.msc with motion := .stopped } })

/-- TENSION_LOST: in a state of R34 the part stops in an emergency: TENSION_LOST is raised, no turn, fill or library work remains, every command that needs the transport ends TRANSPORT_FAULT, and every session that is Streaming, Held or Closing goes to Failed with that reason, its fault in its holder's attention set and the write-fault flag set (R34, R56, R129); an outstanding Load ends THREAD_FAULT (R34). With no unload in progress the machine is Faulted; an unload goes on by the forced path with its holder unchanged: to Closing with a held copy, where the closing checkpoint is asked for, and to Unthreading otherwise (R35). In Closing and Unthreading the reason alone is added (R34). That the forced path is entered in the same step, in Waking too, is read from R34 and R35 (DEDUCED, log entry 36); that the event changes nothing in the states R34 does not name is the model's own choice (log entry 35). -/
def Obligations.TensionLostStops : Prop :=
  ∀ (s : State),
    (s.Calm → s.lsq.state = .closing ∨ s.lsq.state = .unthreading → exec .tensionLost s = .next
      { s with lp := { s.lp with summary := { s.lp.summary with tensionLost := true }, breakDue := s.lp.breakDue || !s.lp.summary.tensionLost } }) ∧
    (s.Settled → s.lsq.state = .empty ∨ s.lsq.state = .seated ∨ s.lsq.state = .threading ∨ s.lsq.state = .standby ∨ s.lsq.state = .ejected ∨
      s.lsq.state = .faulted ∨ (s.lsq.state = .tagRead ∧ s.lsq.resetPath = false) → exec .tensionLost s = .next s) ∧
    (s.Calm → s.lsq.state = .ready ∨ s.lsq.state = .tensioning ∨ s.lsq.state = .recovering ∨ s.lsq.state = .waking ∨
      s.lsq.state = .draining ∨ s.lsq.state = .rewinding ∨ s.lsq.state = .cleaning ∨ (s.lsq.state = .tagRead ∧ s.lsq.resetPath = true) →
      ∃ t, exec .tensionLost s = .next t ∧
        t.lp.summary.tensionLost = true ∧ t.msc.turn = none ∧ t.msc.libWork = none ∧ t.rdu.acc = none ∧
        t.rdu.fills = { a := .none, b := .none } ∧ t.dtc.copy.isSome = s.dtc.copy.isSome ∧ t.cart = s.cart ∧ t.lsq.holder = s.lsq.holder ∧
        (s.lsq.holder = .nobody → s.lsq.joined = false → t.lsq.state = .faulted) ∧
        (s.lsq.holder ≠ .nobody ∨ s.lsq.joined = true → t.lsq.forced = true ∧
          (s.lsq.kind = .data → s.dtc.copy.isSome = true →
            t.lsq.state = .closing ∧ t.dtc.pendCheckpoint.map (·.closing) = some true) ∧
          (s.lsq.kind ≠ .data ∨ s.dtc.copy = none → t.lsq.state = .unthreading ∧ t.lsq.destination = .ejected)) ∧
        (s.lsq.load.isSome = true → s.lp.outstanding = some .load → t.lsq.load = none ∧ t.lp.outstanding = none ∧
          t.lp.tx = s.lp.tx ++ [{ result := .threadFault, code := 1, detail := .none }] ∧ t.lp.unsent = some (s.lp.tx.length + 1)) ∧
        (∀ p c, (s.port p).inService = some c → c.phase = .tape ∨ (c.phase = .awaitSlot ∧ c.cmd = .truncate) ∨
            (c.phase = .reading ∧ c.cmd = .verifyScan ∧ s.rdu.reads.get p = none) ∨
            (c.phase = .reading ∧ ∃ x, s.rdu.reads.get p = some x ∧ x.phase ≠ .delivering) →
          (t.port p).inService = none ∧ t.rdu.reads.get p = none ∧
          (t.port p).outcome.map (fun o => (o.command, o.tag, o.result)) = some (cmdCode c.cmd, c.tag, .transportFault)) ∧
        (∀ p r, s.sessionOf p = some r → (∀ q, s.holds p q = true → q = r) → (s.row r).state.isOpen = true →
            (∀ c, (s.port p).inService = some c → c.phase ≠ .tape ∧ c.phase ≠ .reading) →
          t.lsq.writeFault = true ∧ (t.port p).attention.deferred.isSome = true ∧
          (s.lsq.holder = .nobody → s.lsq.joined = false →
            (t.row r).state = .failed ∧ (t.row r).holder = some p ∧ (t.row r).unverified = 0 ∧ (t.row r).holdTimer = none ∧
            (t.row r).fault.map (fun f => (f.part, f.reason)) = some (r, .transportFault))))

/-! ## The tag reader -/

/-- TAG_READER_GRANT on an idle reader grants the load machine's read first, then a stale mark, then the earlier of a pending checkpoint and a pending library access; a grant takes the snapshot that the transaction writes, the closing one with the Current flag true where no session has failed and the path is not the forced one, and false otherwise (R33, R35), which is judged at the grant (DEDUCED, log entry 41); a reader at work, or with nothing pending, changes nothing (R158 to R161, R164). That an event or internal step which is not due changes nothing is the model's own choice (log entry 3). -/
def Obligations.ReaderGrantsInOrder : Prop :=
  ∀ (s : State), s.Calm →
    let starts := fun (t : State) (k : TagKind) (d : Option Directory) (w : List Part) => exec .tagReaderGrant s = .next
      (t.setDtc { t.dtc with reader := some { kind := k, snapshot := d, timeout := 2, waiters := w, cutSince := false } })
    (s.dtc.reader.isSome = true → exec .tagReaderGrant s = .next s) ∧
    (s.dtc.reader = none → s.dtc.pendLoad = none → s.dtc.pendStale = none → s.dtc.pendCheckpoint = none → s.dtc.pendLibrary = none →
      exec .tagReaderGrant s = .next s) ∧
    (s.dtc.reader = none → s.dtc.pendLoad.map (·.request) = some .loadRead → starts (s.setDtc { s.dtc with pendLoad := none }) .loadRead none []) ∧
    (s.dtc.reader = none → s.dtc.pendLoad.map (·.request) = some .reread → starts (s.setDtc { s.dtc with pendLoad := none }) .reread none []) ∧
    (s.dtc.reader = none → s.dtc.pendLoad = none → s.dtc.pendStale.isSome = true → s.copyCurrent = true →
      starts (s.setDtc { s.dtc with pendStale := none }) .staleMark (s.dtc.copy.map (fun d => { d with current := false })) s.dtc.waiters) ∧
    (∀ a, s.dtc.reader = none → s.dtc.pendLoad = none → s.dtc.pendStale = none → s.dtc.pendLibrary = some a →
      (∀ c, s.dtc.pendCheckpoint = some c → a.since < c.since) →
      starts (s.setDtc { s.dtc with pendLibrary := none }) (.library a.access) none []) ∧
    (∀ c, s.dtc.reader = none → s.dtc.pendLoad = none → s.dtc.pendStale = none → s.dtc.pendCheckpoint = some c → c.closing = false →
      (∀ a, s.dtc.pendLibrary = some a → c.since ≤ a.since) →
      starts (s.setDtc { s.dtc with pendCheckpoint := none }) (.checkpoint false) s.dtc.copy []) ∧
    (∀ c d, s.dtc.reader = none → s.dtc.pendLoad = none → s.dtc.pendStale = none → s.dtc.pendCheckpoint = some c → c.closing = true →
      s.dtc.copy = some d → (∀ a, s.dtc.pendLibrary = some a → c.since ≤ a.since) →
      let closes := fun (current : Bool) => starts (s.setDtc { s.dtc with pendCheckpoint := none }) (.checkpoint true) (some { d with current := current }) []
      (s.lsq.forced = false → s.lsq.writeFault = false → (∀ r, (s.row r).state ≠ .failed) → closes true) ∧
      (s.lsq.forced = true ∨ s.lsq.writeFault = true ∨ (∃ r, (s.row r).state = .failed) → closes false))

/-- TAG_TRANSACTION_DONE for the load read: a good data tag becomes the copy and the machine threads; a good cleaning tag with passes left asks for the pass decrement; with no pass left, with a tag whose contents fail their check, or without success, the Load ends CLEANER_EXPIRED or CM_FAULT with the cartridge Ejected (R12, R22, R179). An expired cleaning cartridge leaves the meter, the clean call, the quality history and the totals as they were (R179); that R179 goes before R174, which empties the history at the entry to Ejected, is the model's own choice (log entry 76). For the re-read of the reset path: a good data tag becomes the copy, and the machine goes to Ready, raising DRIVE_READY, with the Current flag true, and to Recovering with the recovery scan as library work with it false; without success, or with contents that fail their check, TAG_UNREADABLE is raised and the machine goes to Rewinding (R26, R37). For the pass decrement: a done one has the tag take the pass count, the cleaning run wait, and the machine thread; a failed one leaves the tag, ends the Load CM_FAULT with the cartridge Ejected, and no cleaning run is held (R13, R179). -/
def Obligations.LoadReadsEnd : Prop :=
  ∀ (ok : Bool) (tag : Tag) (x : Transaction) (s : State), s.Calm → s.dtc.reader = some x → s.cart.tag = some tag → s.lsq.state = .tagRead →
    let loads := s.lp.outstanding = some .load ∧ s.lsq.load = some .going ∧ s.ports.a.inService = none ∧ s.ports.b.inService = none ∧ s.lsq.holder = .nobody
    let ends := fun (result : LibResult) (detail : LibDetail) (history : List LaneRecord) => ∃ t, exec (.tagTransactionDone ok) s = .next t ∧
      t.lsq.state = .ejected ∧ t.lsq.load = none ∧ t.dtc.reader = none ∧ t.dtc.copy = none ∧ t.cart = s.cart ∧ t.ports = s.ports ∧
      t.hcm = { s.hcm with openRecord := none, history := history, run := .none } ∧
      t.lp = { s.lp with outstanding := none, tx := s.lp.tx ++ [{ result := result, code := 1, detail := detail }], unsent := some (s.lp.tx.length + 1) }
    let copied : Dtc := { s.dtc with reader := none, tagBehind := false, copy := some { type := tag.type, parts := tag.parts, current := tag.current } }
    (x.kind = .loadRead → s.lsq.resetPath = false →
    (ok = true → tagOk tag = true → isDataType tag.type = true → exec (.tagTransactionDone ok) s = .next
      { s with
        lsq := { s.lsq with state := .threading, kind := .data, retries := 0, threadTimer := some 8 }
        dtc := copied }) ∧
    (ok = true → tagOk tag = true → tag.type = .cleaning → 0 < tag.passes → exec (.tagTransactionDone ok) s = .next
      { s with
        lsq := { s.lsq with kind := .cleaning }
        dtc := { s.dtc with reader := none, pendLoad := some { since := s.clock, request := .passDecrement (tag.passes - 1) } } }) ∧
    (loads →
      (ok = false ∨ tagOk tag = false → ends .cmFault .none []) ∧
      (ok = true → tagOk tag = true → tag.type = .cleaning → tag.passes = 0 → ends .cleanerExpired (.passes 0) s.hcm.history))) ∧
    (x.kind = .reread → s.lsq.resetPath = true → s.lsq.load = none →
      (ok = true → tagOk tag = true → isDataType tag.type = true → tag.current = true → exec (.tagTransactionDone ok) s = .next
        { s with
          lsq := { s.lsq with state := .ready, writeFault := false, resetPath := false }
          lp := { s.lp with summary := { s.lp.summary with driveReady := true }, breakDue := s.lp.breakDue || !s.lp.summary.driveReady }
          dtc := { copied with interval := if s.sst.settings.checkpointInterval = 0 then none else some s.sst.settings.checkpointInterval } }) ∧
      (ok = true → tagOk tag = true → isDataType tag.type = true → tag.current = false → exec (.tagTransactionDone ok) s = .next
        { s with
          lsq := { s.lsq with state := .recovering }
          msc := { s.msc with libWork := some .recoveryScan }
          dtc := { copied with interval := none } }) ∧
      (ok = false ∨ tagOk tag = false → exec (.tagTransactionDone ok) s = .next
        { s with
          lsq := { s.lsq with state := .rewinding }
          msc := { s.msc with libWork := some .unloadRewind }
          lp := { s.lp with summary := { s.lp.summary with tagUnreadable := true }, breakDue := s.lp.breakDue || !s.lp.summary.tagUnreadable }
          dtc := { s.dtc with reader := none } })) ∧
    (∀ n, x.kind = .passDecrement n → s.lsq.resetPath = false →
      (ok = true → exec (.tagTransactionDone ok) s = .next
        { s with
          lsq := { s.lsq with state := .threading, retries := 0, threadTimer := some 8 }
          cart := { s.cart with tag := some { tag with passes := n } }
          hcm := { s.hcm with run := .waiting n }
          dtc := { s.dtc with reader := none } }) ∧
      (ok = false → loads → ends .cmFault .none []))

/-- TAG_TRANSACTION_DONE for a library access whose command is outstanding: with success the attribute is read, the attribute or the lock flag is written, or the fresh directory replaces the copy with both contexts Lost and LAYOUT_CHANGED raised, and the command ends OK; without success nothing is written and it ends CM_FAULT (R14 to R18). A lock done on the partition of a session that is Streaming or Held closes it, at the end of the holder's write where one is in service, and one cleared leaves every session as it is (R19). -/
def Obligations.AccessesEnd : Prop :=
  ∀ (a : LibAccess) (x : Transaction) (tag : Tag) (s : State), s.Calm → s.dtc.reader = some x → x.kind = .library a → s.cart.tag = some tag →
    s.lp.outstanding = some (.access a) → s.dtc.pendLibrary = none →
    let answered := fun (result : LibResult) (detail : LibDetail) =>
      { s.lp with outstanding := none, tx := s.lp.tx ++ [{ result := result, code := libCode (.access a), detail := detail }], unsent := some (s.lp.tx.length + 1) : Lp }
    let idle := { s.dtc with reader := none : Dtc }
    exec (.tagTransactionDone false) s = .next { s with dtc := idle, lp := answered .cmFault .none } ∧
    (∀ n, a = .readAttr n → 1 ≤ n → n ≤ 32 → exec (.tagTransactionDone true) s = .next
      { s with dtc := idle, lp := answered .ok (.bytes (tag.attributes.getD (n - 1) [])) }) ∧
    (∀ n b, a = .writeAttr n b → exec (.tagTransactionDone true) s = .next
      { s with dtc := idle, cart := { s.cart with tag := some { tag with attributes := tag.attributes.set (n - 1) b } }, lp := answered .ok .none }) ∧
    (∀ d v, a = .lock d v → (∀ r, (s.row r).state.isActive = false) → ∃ t, exec (.tagTransactionDone true) s = .next t ∧
      t = { s with dtc := { idle with copy := t.dtc.copy }, cart := { s.cart with tag := t.cart.tag }, lp := answered .ok .none } ∧
      t.cart.tag = some { tag with parts := tag.parts.modify d (fun y => { y with locked := v }) } ∧
      t.dtc.copy = s.dtc.copy.map (fun k => { k with parts := k.parts.modify d (fun y => { y with locked := v }) })) ∧
    (∀ d v, a = .lock d v → d ≤ 3 → ∃ t, exec (.tagTransactionDone true) s = .next t ∧
      let r := partNumber d
      let locks := fun (l : List PartDir) => l.modify d (fun y => { y with locked := v })
      let after := fun (y : Row) => t =
        { s with
          dtc := { idle with copy := s.dtc.copy.map (fun k => { k with parts := locks k.parts }) }
          cart := { s.cart with tag := some { tag with parts := locks tag.parts } }
          rows := s.rows.set r y
          lp := answered .ok .none }
      (v = false → s.cart.writeTab = false → after (s.row r)) ∧
      (v = true → (s.partDir r).isSome = true → (s.row r).state.isActive = true → s.placingFor r = false →
        (s.holderWriting r = true → (s.row r).closeDue ≠ .afterPlacing → after { s.row r with closeDue := .afterWrite }) ∧
        (s.holderWriting r = false → s.assemblingOf r = none → 0 < (s.row r).unverified →
          after { s.row r with state := .closing, holdTimer := none, closeDue := .no }))) ∧
    (∀ lanes, a = .layOut lanes → ∃ t, exec (.tagTransactionDone true) s = .next t ∧
      t = { s with dtc := t.dtc, cart := t.cart, msc := t.msc, sbm := t.sbm, ports := t.ports, lp := answered .ok .none } ∧
      t.dtc = { idle with
        copy := some { type := tag.type, parts := lanes.map freshPart, current := true }, tagBehind := false, pendCheckpoint := none } ∧
      t.cart.tag = some { tag with parts := lanes.map freshPart, current := true } ∧
      t.msc = { s.msc with ctx := { a := none, b := none }, landmark := none } ∧
      (∀ p, (t.port p) = { s.port p with attention := { (s.port p).attention with layoutChanged := true } }) ∧
      (∀ i, (t.slot i).state = .cached → (t.slot i).invalidated = true))

/-- TAG_TRANSACTION_TIMEOUT takes the transaction as failed (R158): a checkpoint that fails is counted, and the third failure raises DIRECTORY_AT_RISK once (R165); TAG_TRANSACTION_DONE for a checkpoint makes the tag take its snapshot and clears the count and the risk (R164); a stale mark done makes copy and tag stale, and the rows that waited for it at its grant may write; one that fails loses the session of a row that waited for it at its grant with TAG_FAULT, and leaves the tag and the copy's flag (R129, R161). The closing checkpoint's end, done or failed, leads from Closing to Unthreading, with the checkpoint missed where it failed: Failed rows are None, both contexts Lost, and the tag holds what it wrote, or what it held before (R13, R33, R36). That a read notes the fall of the committed end by a session's loss is read from R129 and R148 (DEDUCED, log entry 73). -/
def Obligations.DirectoryWritesEnd : Prop :=
  ∀ (x : Transaction) (tag : Tag) (s : State), s.Calm → s.dtc.reader = some x → s.cart.tag = some tag →
    exec .tagTransactionTimeout s = exec (.tagTransactionDone false) s ∧
    (x.kind = .checkpoint false → s.dtc.failures < 2 → s.dtc.atRisk = false → exec .tagTransactionTimeout s = .next
      { s with dtc := { s.dtc with reader := none, failures := s.dtc.failures + 1 } }) ∧
    (x.kind = .checkpoint false → s.dtc.failures = 2 → s.dtc.atRisk = false → exec .tagTransactionTimeout s = .next
      { s with
        dtc := { s.dtc with reader := none, failures := 3, atRisk := true }
        lp := { s.lp with summary := { s.lp.summary with directoryAtRisk := true }, breakDue := s.lp.breakDue || !s.lp.summary.directoryAtRisk } }) ∧
    (∀ d, x.kind = .checkpoint false → x.snapshot = some d → exec (.tagTransactionDone true) s = .next
      { s with
        cart := { s.cart with tag := some { tag with parts := d.parts, current := d.current } }
        dtc := { s.dtc with reader := none, failures := 0, atRisk := false, tagBehind := s.dtc.tagBehind && x.cutSince } }) ∧
    (∀ d, x.kind = .staleMark → x.snapshot = some d → s.dtc.waiters = x.waiters → s.dtc.pendStale = none → exec (.tagTransactionDone true) s = .next
      { s with
        cart := { s.cart with tag := some { tag with parts := d.parts, current := d.current } }
        dtc := { s.dtc with
          reader := none, copy := s.dtc.copy.map (fun k => { k with current := false }), tagBehind := s.dtc.tagBehind && x.cutSince, waiters := [] } }) ∧
    (∀ i r p, i = .tagTransactionDone false ∨ i = .tagTransactionTimeout → x.kind = .staleMark → x.waiters = [r] → r ∈ s.dtc.waiters →
      (s.row r).holder = some p → (s.row r).state.isOpen = true → ∃ t, exec i s = .next t ∧
        s.SessionLost r p .tagFault t ∧ t.cart = s.cart ∧ t.copyCurrent = s.copyCurrent ∧ t.dtc.reader = none ∧
        t.dtc.waiters = s.dtc.waiters.filter (· != r) ∧ t.dtc.failures = s.dtc.failures ∧
        (t.dtc.waiters ≠ [] → t.dtc.pendStale.isSome = true)) ∧
    (∀ i ok, (i = .tagTransactionDone ok ∨ (i = .tagTransactionTimeout ∧ ok = false)) → x.kind = .checkpoint true → s.lsq.state = .closing →
      ∃ t, exec i s = .next t ∧
        t.lsq = { s.lsq with
          state := .unthreading, destination := .ejected, threadTimer := none, checkpointMissed := s.lsq.checkpointMissed || !ok } ∧
        t.msc.ctx = { a := none, b := none } ∧ t.dtc.reader = none ∧ t.dtc.interval = none ∧ t.dtc.copy = s.dtc.copy ∧
        (∀ r, t.row r = if (s.row r).state = .failed then Row.empty else s.row r) ∧
        (∀ j, (t.slot j).readSide = true → (t.slot j).invalidated = true) ∧
        (ok = false → t.cart = s.cart) ∧
        (∀ d, ok = true → x.snapshot = some d → t.cart = { s.cart with tag := some { tag with parts := d.parts, current := d.current } }))

/-! ## Timers -/

/-- HOLD_TIMER_EXPIRY of a row whose timer runs closes the session: an assembling slot that holds an entry becomes READY with one segment more unverified, and an empty one is FREE (R54, R108), its number the session's next again (DEDUCED, log entry 59); with nothing left to write the row is None and a checkpoint is requested, otherwise it is Closing; a timer that does not run changes nothing (R53, R54). INTERVAL_TIMER_EXPIRY of a running timer requests a checkpoint, which joins a pending one, and starts the full interval again; a stopped timer changes nothing (R162, R163). That an event or internal step which is not due changes nothing is the model's own choice (log entry 3). -/
def Obligations.HoldAndIntervalTimers : Prop :=
  (∀ (r : Part) (s : State), s.Calm →
     ((s.row r).holdTimer = none → exec (.holdTimerExpiry r) s = .next s) ∧
     ((s.row r).state.isActive = true → (s.row r).holdTimer.isSome = true → s.placingFor r = false → s.assemblingOf r = none →
       (0 < (s.row r).unverified → exec (.holdTimerExpiry r) s = .next
         (s.setRow r { s.row r with state := .closing, holdTimer := none, closeDue := .no })) ∧
       ((s.row r).unverified = 0 → s.msc.turn = none → s.msc.atWrite ≠ some r → s.dtc.copy.isSome = true → s.dtc.pendCheckpoint = none →
         ∃ t, exec (.holdTimerExpiry r) s = .next t ∧
           t = { s with rows := s.rows.set r Row.empty, wvu := t.wvu, dtc := t.dtc, clock := s.clock + 1 } ∧
           t.wvu.live.get r = none ∧ (∀ e ∈ t.wvu.window, e.row ≠ r) ∧ t.wvu.rate = s.wvu.rate ∧
           t.dtc.pendCheckpoint = some { since := s.clock, closing := false } ∧ t.dtc.waiters = s.dtc.waiters.filter (· != r))) ∧
     (∀ i, (s.row r).state.isActive = true → (s.row r).holdTimer.isSome = true → s.placingFor r = false → s.assemblingOf r = some i →
       let x := s.slot i
       (x.entries ≠ [] → exec (.holdTimerExpiry r) s = .next
         { s with
           sbm := { s.sbm with slots := s.sbm.slots.set i { x with state := .ready } }
           rows := s.rows.set r { s.row r with state := .closing, holdTimer := none, unverified := (s.row r).unverified + 1, closeDue := .no } }) ∧
       (x.entries = [] → 0 < (s.row r).unverified → exec (.holdTimerExpiry r) s = .next
         { s with
           sbm := { s.sbm with slots := s.sbm.slots.set i Slot.free }
           rows := s.rows.set r { s.row r with state := .closing, holdTimer := none, nextSegment := x.header.number, closeDue := .no } }) ∧
       (x.entries = [] → (s.row r).unverified = 0 → s.msc.turn = none → s.msc.atWrite ≠ some r → s.dtc.copy.isSome = true → s.dtc.pendCheckpoint = none →
         ∃ t, exec (.holdTimerExpiry r) s = .next t ∧
           t = { s with
             sbm := { s.sbm with slots := s.sbm.slots.set i Slot.free }, rows := s.rows.set r Row.empty, wvu := t.wvu, dtc := t.dtc, clock := s.clock + 1 } ∧
           t.wvu.live.get r = none ∧ t.dtc.pendCheckpoint = some { since := s.clock, closing := false }))) ∧
  (∀ (s : State),
     (s.dtc.interval = none → exec .intervalTimerExpiry s = .next s) ∧
     (let again := if s.sst.settings.checkpointInterval = 0 then none else some s.sst.settings.checkpointInterval
      s.dtc.interval.isSome = true → s.dtc.copy.isSome = true →
       (s.dtc.pendCheckpoint.isSome = true → exec .intervalTimerExpiry s = .next { s with dtc := { s.dtc with interval := again } }) ∧
       (s.dtc.pendCheckpoint = none → exec .intervalTimerExpiry s = .next
         { s with dtc := { s.dtc with interval := again, pendCheckpoint := some { since := s.clock, closing := false } }, clock := s.clock + 1 })))

/-- CLEANING_TIMER_EXPIRY completes a running cleaning run: the meter is 0, the clean call None, history and totals empty, in the monitor and in the store, and the cartridge is unthreaded with the Load to end CLEANED; without a running run nothing changes (R24, R177, R180). That an event or internal step which is not due changes nothing is the model's own choice (log entry 3). -/
def Obligations.CleaningCompletes : Prop :=
  ∀ (s : State),
    ((∀ n m, s.hcm.run ≠ .running n m) → exec .cleaningTimerExpiry s = .next s) ∧
    (∀ n m, s.hcm.run = .running n m → s.msc.travel = 0 → s.lsq.load = some .going → (∀ r, (s.row r).state = .none) →
      ∃ t, exec .cleaningTimerExpiry s = .next t ∧ t = { s with lsq := t.lsq, msc := t.msc, sbm := t.sbm, dtc := t.dtc, hcm := t.hcm, sst := t.sst } ∧
        t.hcm = Hcm.restored 0 .none none ∧ t.sst = { s.sst with meter := 0, level := .none, reason := none } ∧
        t.lsq = { s.lsq with state := .unthreading, destination := .ejected, threadTimer := none, load := some (.endsCleaned n) } ∧
        t.dtc = { s.dtc with interval := none } ∧ t.msc.turn = none ∧ t.msc.head = s.msc.head)

/-- RATE_REVIEW while a subject streams in a drain turn, a Read Record's turn or a fill's (R136) chooses, for the window's bytes b, the lowest level whose speed times 8,388,608 is at least 17 × b, or L5: a higher choice acts at once, an equal one drops a pending lower one, and a lower one acts with the next lower one, at the higher of the two; a new window begins. With no subject streaming in such a turn nothing changes (R137). That an event or internal step which is not due changes nothing is the model's own choice (log entry 3). -/
def Obligations.RateReviewsChoose : Prop :=
  ∀ (s : State), let x := s.wvu.rate
    let counts := fun (j : Job) => (∃ r p, j = .drain r p) ∨ (∃ p, j = .read p) ∨ (∃ p, j = .fill p)
    (s.msc.motion ≠ .streaming ∨ x.subject = .nobody ∨ s.msc.turn = none ∨ (∃ y, s.msc.turn = some y ∧ ¬ counts y.job) → exec .rateReview s = .next s) ∧
    (∀ c y, s.msc.motion = .streaming → x.subject ≠ .nobody → s.msc.turn = some y → counts y.job →
      (c = .l5 ∨ 17 * x.bytes ≤ levelSpeed c * 8388608) → (∀ l, levelRank l < levelRank c → levelSpeed l * 8388608 < 17 * x.bytes) →
      let level := if levelRank x.level < levelRank c then c else if c = x.level then x.level else
        match x.pendingLower with | none => x.level | some d => if levelRank c < levelRank d then d else c
      let pending := if levelRank c < levelRank x.level ∧ x.pendingLower = none then some c else none
      exec .rateReview s = .next (s.setWvu { s.wvu with rate :=
        { x with level := level, streamed := 0, bytes := 0, backhitches := 0, pendingLower := pending } }))

/-! ## The transport -/

/-- TURN_GRANT: with a turn in progress that does not wait after a backhitch or run out, or with no eligible work, nothing changes; with none in progress library work in its own load state comes first, and then the last-served port's work while its burst is below 8 or the other port has none, otherwise the other port's, whose grant makes it last-served with its burst at 0 (R64, R65); the work begins with its motion, a return to lane 0 or a Rewind with a relocation (R69, R77, R82). That an event or internal step which is not due changes nothing is the model's own choice (log entry 3). -/
def Obligations.TurnsAreGranted : Prop :=
  ∀ (s : State), s.Calm →
    (s.msc.turn.isSome = true → s.msc.activity ≠ .backhitched → s.msc.activity ≠ .runningOut → exec .turnGrant s = .next s) ∧
    (s.msc.turn = none → s.msc.libWork = none → s.portWork .a = none → s.portWork .b = none → exec .turnGrant s = .next s) ∧
    (s.msc.turn = none → s.msc.libWork = some .returnHome → s.lsq.state = .recovering → s.msc.atWrite = none → s.msc.travel = 0 →
      s.rdu.fills = { a := .none, b := .none } → exec .turnGrant s = .next (s.setMsc
        { s.msc with
          libWork := none
          turn := some { job := .library .returnHome, written := 0, stopping := false, leaving := none }
          motion := .relocating
          activity := .relocating s.msc.head { lane := 0, coord := 0 } (isHit s.msc.head { lane := 0, coord := 0 }) .home })) ∧
    (∀ p c l r, s.msc.turn = none → s.msc.libWork = none → s.lsq.state = .ready → s.msc.atWrite = none → s.msc.travel = 0 →
      s.rdu.fills = { a := .none, b := .none } → s.sessionOf p = none → (s.port p).inService = some c → c.cmd = .rewind (some l) →
      c.part = some r → c.phase = .tape →
      (if p = s.msc.lastServed then s.portWork (otherPort p) = none ∨ s.msc.burst < 8 else s.portWork (otherPort p) = none ∨ 8 ≤ s.msc.burst) →
      let g : Goal := { part := r, logical := l, aim := .bot, wanted := 0, marksCounted := false, spacing := false, validates := true, result := .ok, residual := none }
      let bot := placeOf (s.partFirst r) 0
      exec .turnGrant s = .next (s.setMsc
        { s.msc with
          lastServed := p
          burst := if p = s.msc.lastServed then s.msc.burst else 0
          turn := some { job := .position p g, written := 0, stopping := false, leaving := none }
          motion := .relocating
          activity := .relocating s.msc.head bot (isHit s.msc.head bot) .goal }))

/-- RELOCATION_COMPLETE: the head stands at the target and the meter has risen by twice the slots moved (R69, R71, R171); a header scan goes on streaming (R76); a positioning command to the beginning of a partition has its context there, ends OK, and its turn ends with the transport stopped (R77, R83), after a lane hit too, where R69 has the transport streaming at the arrival (DESIGN CHOICE, log entry 62). A positioning command's turn that a Port Cut or a port reset has stopped ends at the arrival, its context not moved, a retry's relocation (R146) among them, whose copy the stop has given up (R70; DEDUCED, log entry 15). The unload rewind's arrival ends its turn and leads to Closing, where the closing checkpoint is requested or joins a pending one (R33), and to Unthreading where no copy is held, as after a re-read that failed (R37). A fill that returns to the end of the copy it has recovered streams on, and stops there where the load state has left Ready or another of its limits is met (R151); that it returns there after a look-ahead is read from R145 (DEDUCED, log entry 13). Without a relocation in progress nothing changes. That an event or internal step which is not due changes nothing is the model's own choice (log entry 3). -/
def Obligations.RelocationsArrive : Prop :=
  ∀ (s : State), s.Calm →
    (s.msc.activity = .idle ∨ s.msc.activity = .seeking ∨ s.msc.activity = .scanning ∨ s.msc.activity = .reading → exec .relocationComplete s = .next s) ∧
    (∀ start target hit p g w, s.msc.turn = some { job := .position p g, written := w, stopping := false, leaving := none } →
      s.hcm.openRecord = none → s.MeterQuiet (distance start.coord target.coord) →
      let meter := min 4294967295 (s.hcm.meter + 2 * distance start.coord target.coord)
      (s.msc.activity = .relocating start target hit .scan → exec .relocationComplete s = .next
        { s with msc := { s.msc with head := target, motion := .streaming, activity := .scanning }, hcm := { s.hcm with meter := meter } }) ∧
      (∀ c l, s.msc.activity = .relocating start target hit .goal → g.aim = .bot → g.result = .ok → g.residual = none → s.msc.travel = 0 →
        (s.port p).inService = some c → c.cmd = .rewind l → s.sessionOf p = none →
        let x : Context := { logical := g.logical, object := 0, marks := 0, atEnd := s.committedObjects g.part = 0 }
        ∃ t, exec .relocationComplete s = .next t ∧ t = { s with ports := t.ports, msc := t.msc, hcm := { s.hcm with meter := meter } } ∧
          t.msc.head = target ∧ t.msc.motion = .stopped ∧ t.msc.turn = none ∧ t.msc.activity = .idle ∧ t.msc.ctx = s.msc.ctx.set p (some x) ∧
          t.ports = s.ports.set p (t.port p) ∧ t.port p = ((s.setContext p (some x)).ended p 9 c.tag .ok false .none).port p)) ∧
    (∀ start target hit next p g w, s.msc.turn = some { job := .position p g, written := w, stopping := true, leaving := none } →
      s.msc.activity = .relocating start target hit next → next ≠ .write → s.rdu.acc = none →
      ∃ t, exec .relocationComplete s = .next t ∧ t = { s with msc := t.msc, hcm := t.hcm, sst := t.sst, lp := t.lp } ∧
        t.msc.head = target ∧ t.msc.turn = none ∧ t.msc.motion = .stopped ∧ t.msc.activity = .idle ∧ t.msc.ctx = s.msc.ctx) ∧
    (∀ start target hit w, s.msc.turn = some { job := .library .unloadRewind, written := w, stopping := false, leaving := none } →
      s.msc.activity = .relocating start target hit .home → s.lsq.state = .rewinding →
      let home := fun (t : State) => t.msc.head = target ∧ t.msc.turn = none ∧ t.msc.motion = .stopped ∧ t.msc.activity = .idle
      let closes := fun (c : PendingCheckpoint) (clock : Nat) => ∃ t, exec .relocationComplete s = .next t ∧ home t ∧
        t = { s with
          msc := t.msc, hcm := t.hcm, sst := t.sst, lp := t.lp, lsq := { s.lsq with state := .closing }
          dtc := { s.dtc with interval := none, pendCheckpoint := some c }, clock := clock }
      (s.dtc.copy.isSome = true → s.dtc.pendCheckpoint = none → closes { since := s.clock, closing := true } (s.clock + 1)) ∧
      (∀ c, s.dtc.copy.isSome = true → s.dtc.pendCheckpoint = some c → closes { c with closing := true } s.clock) ∧
      (s.dtc.copy = none → ∃ t, exec .relocationComplete s = .next t ∧ home t ∧ t.lsq.state = .unthreading ∧ t.lsq.destination = .ejected)) ∧
    (∀ start target hit p r n w, s.msc.turn = some { job := .fill p, written := w, stopping := false, leaving := none } →
      s.msc.activity = .relocating start target hit .resume → s.rdu.fills.get p = .running r n →
      (s.lsq.state ≠ .ready ∨ s.fillAtLimit p r n = true → ∃ t, exec .relocationComplete s = .next t ∧
        t = { s with msc := t.msc, hcm := t.hcm, sst := t.sst, lp := t.lp, rdu := { s.rdu with fills := s.rdu.fills.set p .none } } ∧
        t.msc.head = target ∧ t.msc.turn = none ∧ t.msc.motion = .stopped) ∧
      (s.fillAtLimit p r n = false → ∃ t, exec .relocationComplete s = .next t ∧
        t = { s with msc := t.msc, hcm := t.hcm, sst := t.sst, lp := t.lp, wvu := t.wvu } ∧
        t.msc.head = target ∧ t.msc.activity = .seeking ∧ t.msc.motion = .streaming ∧ t.msc.turn = s.msc.turn))

/-- LEAVING_PROCEDURE_DONE: with nothing of the row left due or outstanding the chosen work begins, a positioning command and a read with the motion of R77 or the header scan of R75; until then nothing changes (R66, R67). BACKHITCH_WAIT_END: with four READY segments, and no other work eligible, writing goes on at the write point with the lowest; with fewer and no drain demand the wait goes on (R130). DRAINING_END: with every row None or Failed and no command but an Unload Request in service the machine enters Rewinding with the unload rewind as library work; with a session open nothing changes (R32, R33). That an event or internal step which is not due changes nothing is the model's own choice (log entry 3). -/
def Obligations.TransportWaitsEnd : Prop :=
  ∀ (s : State),
    (∀ r j w, s.Calm → s.msc.turn = some { job := j, written := w, stopping := false, leaving := some r } →
      ((∃ e ∈ s.wvu.window, e.row = r) → exec .leavingProcedureDone s = .next s) ∧
      ((∀ e ∈ s.wvu.window, e.row ≠ r) → (∀ e ∈ s.wvu.rewrites, e.row ≠ r) → s.nextReady r = none →
        s.hcm.openRecord = none → s.msc.travel = 0 →
        let moves := fun (t : State) (target : Place) (next : Next) => exec .leavingProcedureDone s = .next (t.setMsc
          { t.msc with
            turn := some { job := j, written := 0, stopping := false, leaving := none }
            motion := .relocating
            activity := .relocating s.msc.head target (isHit s.msc.head target) next })
        let scans := fun (t : State) (q : Part) (o : Nat) =>
          let from_ := s.scanStart q (.object o)
          moves (t.setMsc { t.msc with scan := some { part := q, target := .object o, expected := from_.2, taken := [] } }) from_.1 .scan
        (j = .library .returnHome → moves s { lane := 0, coord := 0 } .home) ∧
        (∀ p g, j = .position p g →
          (g.aim = .bot → moves s (placeOf (s.partFirst g.part) 0) .goal) ∧
          (∀ n m place, g.aim = .theEnd n m place → moves s place .goal) ∧
          (∀ o, g.aim = .object o → scans s g.part o)) ∧
        (∀ p x, j = .read p → s.rdu.reads.get p = some x →
          scans (s.setRdu { s.rdu with reads := s.rdu.reads.set p (some { x with phase := .reading, lastRead := none }) }) x.part x.object))) ∧
    (∀ r j w, s.Calm → s.msc.turn = some { job := j, written := w, stopping := true, leaving := some r } →
      (∀ e ∈ s.wvu.window, e.row ≠ r) → (∀ e ∈ s.wvu.rewrites, e.row ≠ r) → s.nextReady r = none →
      ∃ t, exec .leavingProcedureDone s = .next t ∧ t.msc.turn = none ∧ t.msc.motion = .stopped) ∧
    (∀ r p n, s.Settled → s.lsq.state ≠ .standby → s.ports.a.cut = false → s.ports.b.cut = false → s.Draining r p n → s.wvu.backhitch = some r →
      s.msc.activity = .backhitched → s.otherEligible p = false →
      (s.readyCount r < 4 → s.drainDemand r = false → exec .backhitchWaitEnd s = .next s) ∧
      (∀ m, 4 ≤ s.readyCount r → s.firstDue r = none → s.nextReady r = some m → 16 ≤ s.laneFree r →
        s.msc.head = s.writePlace r → s.wvu.rate.subject = .session r → exec .backhitchWaitEnd s = .next
          { s with
            wvu := { s.wvu with backhitch := none }
            msc := { s.msc with activity := .writing (.segment m), motion := .streaming } })) ∧
    (s.lsq.state = .draining →
      ((∃ r, (s.row r).state.isOpen = true) → exec .drainingEnd s = .next s) ∧
      ((∀ r, (s.row r).state = .none ∨ (s.row r).state = .failed) → (∀ p c, (s.port p).inService = some c → c.cmd = .unloadRequest) →
        exec .drainingEnd s = .next
          { s with lsq := { s.lsq with state := .rewinding }, msc := { s.msc with libWork := some .unloadRewind } }))

/-- HEADER_READ in a header scan replaces the landmark with the segment and moves the head to its first stripe; a segment without the target is passed over, and the entry that begins the target object ends a positioning command there with its context set (R74, R76, R83). HEADER_UNREADABLE in a header scan begins the recovery of the copy it stands at (R76, R144). With the transport idle neither changes anything. That an event or internal step which is not due changes nothing is the model's own choice (log entry 3). -/
def Obligations.HeadersAreMet : Prop :=
  ∀ (o w : Nat) (h : SegHeader) (l : List Entry) (p : Port) (g : Goal) (x : HeaderScan) (s : State), s.Calm →
    (s.msc.activity = .idle → exec (.headerRead o h l) s = .next s ∧ exec (.headerUnreadable o) s = .next s) ∧
    (s.msc.activity = .scanning → s.msc.scan = some x → s.msc.turn = some { job := .position p g, written := w, stopping := false, leaving := none } →
      s.pastEnd x.part o = false →
      let lane := s.msc.head.lane
      let mark : Landmark :=
        { part := x.part, lane := lane, offset := o, segment := h.number, firstObject := h.firstObject.getD 0, marksBefore := h.marksBefore.getD 0
          begins := (l.head?.map beginsObject).getD false }
      (x.expected ≤ h.number → h.number ∉ x.taken → h.number < s.committedSegments x.part →
        (findIn (h.firstObject.getD 0) (h.marksBefore.getD 0) l x.target = none → exec (.headerRead o h l) s = .next (s.setMsc
          { s.msc with
            head := placeOf lane o, travel := s.msc.travel + s.slotsTo o, landmark := some mark
            scan := some { x with taken := h.number :: x.taken }, motion := .streaming })) ∧
        (∀ k marks c, findIn (h.firstObject.getD 0) (h.marksBefore.getD 0) l x.target = some (k, marks) → g.aim = .object k →
          k ≤ s.committedObjects g.part → (s.port p).inService = some c → (∃ a b, c.cmd = .locate a b) → s.sessionOf p = none → s.hcm.openRecord = none →
          let y : Context := { logical := g.logical, object := k, marks := marks, atEnd := k = s.committedObjects g.part }
          ∃ t, exec (.headerRead o h l) s = .next t ∧ t = { s with ports := t.ports, msc := t.msc, hcm := t.hcm, sst := t.sst, lp := t.lp } ∧
            t.msc.head = placeOf lane o ∧ t.msc.motion = .stopped ∧ t.msc.turn = none ∧ t.msc.scan = none ∧ t.msc.landmark = some mark ∧
            t.msc.ctx = s.msc.ctx.set p (some y) ∧ t.ports = s.ports.set p (t.port p) ∧
            t.port p = ((s.setContext p (some y)).ended p 5 c.tag g.result false (match g.residual with | none => .none | some n => .residual n)).port p)) ∧
      (∃ a, exec (.headerUnreadable o) s = .next
          { s with
            msc := { s.msc with head := placeOf lane o, travel := s.msc.travel + s.slotsTo o, activity := .reading, motion := .streaming }
            rdu := { s.rdu with acc := some a } } ∧
        a.part = x.part ∧ a.lane = lane ∧ a.offset = o ∧ a.attempt = none ∧ a.readable = 0 ∧ a.retries = 0 ∧ a.forScan = true))

/-- STRIPE_SET_READ: fewer than 14 readable stripes are followed by the look-ahead; with 14 or more the segment is recovered (R144, R145). In the recovery scan the expected one is applied with its counts, the end place after it (R167). In a read its slot is CACHED and pinned for the read, which goes on to the next segment it lacks (R143). In a fill its slot is CACHED without a pin and the next number is one up, where no other work is eligible and its limits allow; at its limits the fill stops (R151). In a Verify Scan, at its first segment, the slot is CACHED and pinned, the segment counted, and its entries' expansions sent, where no work has become eligible against it (R153). REWRITE_STRIPE_READ of the copy's segment and attempt in the look-ahead adds its stripe; any other is passed, and its slot counts among those passed in both cases (R71, R145). LOOK_AHEAD_SPAN_END leads to a retry from the copy's first stripe, up to four (R146); after the fourth a read ends READ_FAULT, its slot FREE (R146, R149). That a read's or fill's segment is asked for by the number its slot was taken for is read from R143 and R151 (DEDUCED, log entry 69). -/
def Obligations.CopiesAreRecovered : Prop :=
  ∀ (a : Acc) (k w : Nat) (s : State), s.rdu.acc = some a → a.attempt = some k →
    (∀ j, s.Calm → readSubject j = none → s.msc.turn = some { job := j, written := w, stopping := false, leaving := none } →
      (∀ x named c, s.msc.activity = .reading → stripeCount (a.readable ||| x) < 14 → exec (.stripeSetRead x named c) s = .next
        { s with
          msc := { s.msc with head := placeOf s.msc.head.lane (a.offset + 16), travel := s.msc.travel + s.slotsTo (a.offset + 16), activity := .lookingAhead, motion := .streaming }
          rdu := { s.rdu with acc := some { a with readable := a.readable ||| x, content := some c, passed := 0 } } }) ∧
      (∀ x named c v, s.msc.activity = .reading → 14 ≤ stripeCount (a.readable ||| x) → a.forScan = false → j = .library .recoveryScan →
        s.dtc.recovery = some v → c.header.number = v.expected →
        ∃ t y z, exec (.stripeSetRead x named c) s = .next t ∧
          t = { s with msc := t.msc, rdu := { s.rdu with acc := none }, dtc := { s.dtc with recovery := some y }, hcm := t.hcm, sst := t.sst, lp := t.lp } ∧
          t.msc.activity = .seeking ∧ t.msc.motion = .streaming ∧ t.msc.head = placeOf s.msc.head.lane (a.offset + 16) ∧
          y = { v with applied := v.applied ++ [z], expected := v.expected + 1, endPlace := s.partOffset (partNumber v.part) a.lane (a.offset + 16) } ∧
          z.number = c.header.number ∧ z.attempt = c.header.attempt ∧ z.lane = a.lane ∧ z.offset = a.offset ∧
          z.objects = max v.counts.1 (objectsEnd (c.header.firstObject.getD 0) c.entries) ∧
          z.marks = v.counts.2 + newMarks (c.header.firstObject.getD 0) v.counts.1 c.entries) ∧
      (∀ o seg att i, s.msc.activity = .lookingAhead → s.recovering = false → s.pastEnd a.part o = false →
        let passed : State → Acc → State := fun t b =>
          { t with
            msc := { t.msc with head := placeOf t.msc.head.lane (o + 1), travel := t.msc.travel + t.slotsTo (o + 1) }
            rdu := { t.rdu with acc := some { b with passed := b.passed + (o + 1 - t.msc.head.offset) } } }
        (seg ≠ a.number ∨ att ≠ k → exec (.rewriteStripeRead o seg att i) s = .next (passed s a)) ∧
        (seg = a.number → att = k → stripeCount (addStripe a.readable i) < 14 → exec (.rewriteStripeRead o seg att i) s = .next
          (passed s { a with readable := addStripe a.readable i }))) ∧
      (s.msc.activity = .lookingAhead → a.retries < 4 → ∃ t start hit, exec .lookAheadSpanEnd s = .next t ∧
        t = { s with msc := t.msc, rdu := { s.rdu with acc := some { a with retries := a.retries + 1, passed := 0 } }, hcm := t.hcm, sst := t.sst, lp := t.lp } ∧
        t.msc.activity = .relocating start (placeOf a.lane a.offset) hit .reread ∧ t.msc.motion = .relocating)) ∧
    (∀ m named c i, s.msc.activity = .reading → a.forScan = false → 14 ≤ stripeCount (a.readable ||| m) → a.slot = some i → (s.slot i).state = .filling →
      (s.slot i).header.number = c.header.number →
      let kept : Slot := { s.slot i with state := .cached, header := c.header, entries := c.entries, payload := c.payload, lastUse := some s.clock }
      let after : Slot → State → Prop := fun z t =>
        t.sbm = { s.sbm with slots := s.sbm.slots.set i z } ∧ t.rdu.acc = none ∧ t.msc.activity = .seeking ∧ t.msc.motion = .streaming ∧
        t.msc.head = placeOf s.msc.head.lane (a.offset + 16) ∧ t.msc.turn = s.msc.turn ∧ t.ports = s.ports ∧ t.rows = s.rows ∧ t.dtc = s.dtc
      (∀ p x, s.Calm → s.msc.turn = some { job := .read p, written := w, stopping := false, leaving := none } → s.rdu.reads.get p = some x →
        let z := kept.setPin p true
        let y : ReadState := { x with held := x.held ++ [(c.header.number, i)], lastRead := some c.header.number }
        let u : State := { s with sbm := { s.sbm with slots := s.sbm.slots.set i z } }
        u.lacking y ≠ none → ∃ t, exec (.stripeSetRead m named c) s = .next t ∧ after z t ∧
          t.rdu = { s.rdu with acc := none, reads := s.rdu.reads.set p (some y) } ∧ t.rcx = s.rcx) ∧
      (∀ p n, s.Calm → s.msc.turn = some { job := .fill p, written := w, stopping := false, leaving := none } → s.rdu.fills.get p = .running a.part n →
        (s.slot i).invalidated = false →
        let u : State := { s with sbm := { s.sbm with slots := s.sbm.slots.set i kept } }
        u.workBesideFill p = false →
        (u.fillAtLimit p a.part (c.header.number + 1) = false → ∃ t, exec (.stripeSetRead m named c) s = .next t ∧ after kept t ∧
          t.rdu = { s.rdu with acc := none, fills := s.rdu.fills.set p (.running a.part (c.header.number + 1)) } ∧ t.rcx = s.rcx) ∧
        (u.fillAtLimit p a.part (c.header.number + 1) = true → ∃ t, exec (.stripeSetRead m named c) s = .next t ∧ t.sbm = u.sbm ∧
          t.rdu = { s.rdu with acc := none, fills := s.rdu.fills.set p .none } ∧ t.msc.turn = none ∧ t.msc.motion = .stopped ∧ t.rcx = s.rcx)) ∧
      (∀ p x y q, s.ports.a.cut = false → s.ports.b.cut = false → s.lsq.state ≠ .standby →
        s.msc.turn = some { job := .verify p, written := w, stopping := false, leaving := none } → s.rdu.scans.get p = some x →
        x.pending = false → x.ended = none → x.held = [] → x.already = [] → x.next = c.header.number → c.header.number + 1 < x.segments → State.scanExpects x c.header = true →
        let z := kept.setPin p true
        let first := c.header.firstObject.getD 0
        let x1 : ScanState := { x with segmentsChecked := x.segmentsChecked + 1, held := [(c.header.number, i, first + c.entries.length)] }
        let y1 := State.passChecked y.found.length { y with
          next := c.header.number + 1, expectObject := some (objectsEnd first c.entries), expectMarks := c.header.marksBefore.getD 0 + markCount c.entries }
        let u : State := { s with sbm := { s.sbm with slots := s.sbm.slots.set i z } }
        State.scanEntries p c.entries c.payload c.entries 0 first x1 [] = some (y, q) → y1.checkedPoint < first + c.entries.length → u.contenders p = [] →
        ∃ t, exec (.stripeSetRead m named c) s = .next t ∧ after z t ∧ t.rdu = { s.rdu with acc := none, scans := s.rdu.scans.set p (some y1) } ∧
          y1.segmentsChecked = x.segmentsChecked + 1 ∧ t.rcx = { s.rcx with expQueue := s.rcx.expQueue ++ q })) ∧
    (∀ p x i y, s.Calm → s.msc.activity = .lookingAhead → s.msc.turn = some { job := .read p, written := w, stopping := false, leaving := none } →
      4 ≤ a.retries → a.forScan = false → a.slot = some i → (s.slot i).state = .filling → s.rdu.reads.get p = some x → x.lastRead = none →
      (s.port p).inService = some y → (∃ n, y.cmd = .readRecord n) →
      (∀ z ∈ s.sbm.slots, z.pinned = false) → s.sessionOf p = none →
      ∃ t, exec .lookAheadSpanEnd s = .next t ∧ t.port p = (s.ended p 3 y.tag .readFault false .none).port p ∧
        t.sbm = { s.sbm with slots := s.sbm.slots.set i Slot.free } ∧ t.rdu = { s.rdu with acc := none, reads := s.rdu.reads.set p none } ∧
        t.msc.turn = none ∧ t.msc.motion = .stopped)

/-- BLANK_STRETCH in the recovery scan ends the partition's scan: its extension is applied to the copy, and after the last partition the scan's end is reported with a checkpoint requested and the return to lane 0 as library work (R25, R168); that its turn ends with the transport stopped is the model's own choice (log entry 62). LANE_END_REACHED in a header scan carries the head to the start of the next lane of the partition, with the movement reported, and the scan streams on (R76, R171). In a look-ahead it carries the head there too, and the slots to the lane's end join those passed, none where the head has passed its last slot, as after a copy that ends it (R145). That an event or internal step which is not due changes nothing is the model's own choice (log entry 3). -/
def Obligations.LanesAndBlankTape : Prop :=
  ∀ (s : State), s.Calm →
    (∀ x d y, s.msc.activity = .seeking → s.msc.turn = some { job := .library .recoveryScan, written := 0, stopping := false, leaving := none } →
      s.dtc.recovery = some x → s.dtc.copy = some d → x.part < 4 → d.parts[x.part]? = some y → d.parts[x.part + 1]? = none →
      ∃ t z, exec .blankStretch s = .next t ∧
        t = { s with msc := t.msc, dtc := t.dtc, hcm := t.hcm, sst := t.sst, lp := t.lp, clock := t.clock } ∧
        t.dtc.copy = some { d with parts := d.parts.set x.part z } ∧ t.dtc.recovery = none ∧ t.dtc.pendCheckpoint.isSome = true ∧
        t.msc.turn = none ∧ t.msc.libWork = some .returnHome ∧ t.msc.motion = .stopped ∧
        z.lanes = x.start.lanes ∧ z.segments = x.expected ∧ z.used = x.endPlace ∧ z.objects = x.counts.1 ∧ z.marks = x.counts.2 ∧ z.locked = x.start.locked) ∧
    (s.msc.activity = .idle → exec .blankStretch s = .next s ∧ exec (.laneEndReached []) s = .next s) ∧
    (∀ x p g w, s.msc.activity = .scanning → s.msc.scan = some x → s.msc.turn = some { job := .position p g, written := w, stopping := false, leaving := none } →
      s.msc.head.lane + 1 < s.partFirst x.part + s.partLanes x.part → 48000 * (s.msc.head.lane + 1 - s.partFirst x.part) < s.recordedUsed x.part →
      s.hcm.openRecord = none → s.MeterQuiet (s.msc.travel + (48000 - s.msc.head.offset)) →
      exec (.laneEndReached []) s = .next
        { s with
          msc := { s.msc with head := placeOf (s.msc.head.lane + 1) 0, travel := 0, motion := .streaming }
          hcm := { s.hcm with meter := min 4294967295 (s.hcm.meter + 2 * (s.msc.travel + (48000 - s.msc.head.offset))) } }) ∧
    (∀ a j w, s.msc.activity = .lookingAhead → s.rdu.acc = some a → s.msc.turn = some { job := j, written := w, stopping := false, leaving := none } →
      s.recovering = false → s.msc.head.lane + 1 < s.partFirst a.part + s.partLanes a.part →
      48000 * (s.msc.head.lane + 1 - s.partFirst a.part) < s.recordedUsed a.part →
      let left := 48000 - s.msc.head.offset
      ∃ t, exec (.laneEndReached []) s = .next t ∧
        t = { s with msc := t.msc, rdu := { s.rdu with acc := some { a with passed := a.passed + left } }, wvu := t.wvu, hcm := t.hcm, sst := t.sst, lp := t.lp } ∧
        t.msc.head = placeOf (s.msc.head.lane + 1) 0 ∧ t.msc.activity = .lookingAhead ∧ t.msc.motion = .streaming ∧ t.msc.turn = s.msc.turn)

/-- SEGMENT_WRITTEN: the segment in hand is UNVERIFIED at the write point, enters the verify window, and 16 slots are consumed; REWRITE_WRITTEN: the rewrite is no longer due and counts as made at the write point, and one slot is consumed; whatever the unit writes next, with room on the lane these stand and no session, directory or port is touched (R122). LANE_END_REACHED with the window run out and a segment to write that does not fit abandons the lane's tail, and the segment is written at the start of the partition's next lane (R6, R128); on the last lane the session is lost with DATA_LOST_AT_END, and the drain turn ends (R56, R128, R129). That a session which abandons a tail before it has written a segment holds its live count from then on is the model's own choice (log entry 64), and that a read notes the fall of the committed end by a session's loss, where R148 names a Truncate alone, is read from R129 and R148 (DEDUCED, log entry 73). -/
def Obligations.WritingAdvances : Prop :=
  (∀ (r : Part) (p : Port) (k m : Nat) (outcomes : List ChannelOutcome) (s : State), s.ports.a.cut = false → s.ports.b.cut = false → s.lsq.state ≠ .standby →
    s.Draining r p k → k < 16 → s.msc.activity = .runningOut →
    let u := outcomes.foldl State.takeOutcome (s.headTo 48000)
    let n := (u.writePoint r).1 + 1
    u.msc.turn = s.msc.turn → u.outstanding r = false → u.firstDue r = none → u.nextReady r = some m → u.laneFree r < 16 →
    (n < u.partLanes r → ∃ t, exec (.laneEndReached outcomes) s = .next t ∧
      t = { u with msc := t.msc, wvu := t.wvu, hcm := t.hcm, sst := t.sst, lp := t.lp } ∧
      t.wvu = { u.wvu with live := u.wvu.live.set r (some { count := 48000 * n, lane := n }), rate := u.wvu.rate.begin (.session r) } ∧
      t.msc.head = placeOf (u.partFirst r + n) 0 ∧ t.msc.activity = .writing (.segment m) ∧ t.msc.motion = .streaming ∧ t.msc.turn = s.msc.turn) ∧
    (u.partLanes r ≤ n → (u.row r).holder = some p → (u.row r).state.isOpen = true → ∃ t, exec (.laneEndReached outcomes) s = .next t ∧
      u.SessionLost r p .dataLostAtEnd t ∧ t.msc.turn = none ∧ t.msc.motion = .stopped ∧ t.cart = u.cart)) ∧
  ∀ (r : Part) (p : Port) (k i : Nat) (s : State), s.Calm → s.Draining r p k → 32 ≤ s.laneFree r →
    let x := s.slot i
    let w := s.writePoint r
    (∀ n, s.msc.activity = .writing (.segment n) → s.writeSlotOf r n = some i → s.firstDue r = none → ∃ t, exec .segmentWritten s = .next t ∧
      t = { s with msc := t.msc, sbm := t.sbm, wvu := t.wvu, hcm := t.hcm, sst := t.sst, lp := t.lp } ∧
      t.sbm = { s.sbm with slots := s.sbm.slots.set i { x with state := .unverified, lane := s.partFirst r + w.1, offset := w.2 } } ∧
      t.wvu.window = s.wvu.window ++ [{ row := r, segment := n, attempt := x.header.attempt, lastStripe := w.2 + 15 }] ∧
      t.wvu.live = s.wvu.live.set r (some { count := s.currentUsed r + 16, lane := w.1 }) ∧ t.wvu.rewrites = s.wvu.rewrites) ∧
    (∀ n j, s.msc.activity = .writing (.rewrite n j) → s.writeSlotOf r n = some i → ∃ t, exec .rewriteWritten s = .next t ∧
      t = { s with msc := t.msc, sbm := t.sbm, wvu := t.wvu, hcm := t.hcm, sst := t.sst, lp := t.lp } ∧
      t.sbm = { s.sbm with slots := s.sbm.slots.set i { x with rewritesMade := x.rewritesMade + 1 } } ∧ t.wvu.window = s.wvu.window ∧
      t.wvu.live = s.wvu.live.set r (some { count := s.currentUsed r + 1, lane := w.1 }) ∧
      t.wvu.rewrites = s.wvu.rewrites.map (fun e =>
        if e.row == r && e.segment == n && e.stripe == j then { e with due := false, made := e.made + 1, offset := w.2 } else e))

/-- VERIFY_OUTCOME, for the writing at the head of the verify window: failed stripes join the rewrite list, and a segment with none that is next in number verifies: its slot is free, the directory has it with its objects, marks and used slots, and its session has one fewer unverified; an outcome of any other writing is ignored (R10, R123, R124, R126, R157). REWRITE_OUTCOME: a rewrite that passed leaves the list, and one that failed is due again until its third (R125). When the third fails, the segment and the written ones above it leave the three lists and are READY as their next attempt (R127); where an attempt would rise above 2, the session is lost with WRITE_FAULT, and the drain turn ends (R56, R127, R129). The segment next to be written stands chosen in the same step, in place of the one whose writing was under way, which is written again as its next attempt (DEDUCED, log entry 12). That a read notes the fall of the committed end by a session's loss, where R148 names a Truncate alone, is read from R129 and R148 (DEDUCED, log entry 73). That an outcome of any writing but the head of the window is ignored, one still in the window included, is the model's own choice (log entry 53). -/
def Obligations.OutcomesAreTaken : Prop :=
  ∀ (r : Part) (p : Port) (k m : Nat) (s : State), s.Calm → s.Draining r p k → s.msc.activity = .writing (.segment m) → s.nextReady r = some m →
    (∀ e rest seg att failed, s.wvu.window = e :: rest →
      (seg ≠ e.segment ∨ att ≠ e.attempt → exec (.verifyOutcome seg att failed) s = .next s) ∧
      (seg = e.segment → att = e.attempt → e.row = r → (s.writePoint r).2 < min 48000 (e.lastStripe + 33) →
        (failed ≠ 0 → exec (.verifyOutcome seg att failed) s = .next (s.setWvu
          { s.wvu with
            window := rest
            rewrites := (failedStripes failed).foldl
              (fun l i => insertRewrite { row := r, segment := seg, stripe := i, made := 0, due := true, offset := 0 } l) s.wvu.rewrites })) ∧
        (∀ i l d, failed = 0 → s.wvu.completion = [] → s.wvu.live.get r = some l → s.partDir r = some d → seg = d.segments → s.writeSlotOf r seg = some i →
          (s.slot i).state = .unverified → (s.row r).state = .streaming → ∃ t y, exec (.verifyOutcome seg att failed) s = .next t ∧
            t = { s with sbm := t.sbm, rows := t.rows, wvu := { s.wvu with window := rest }, dtc := t.dtc, msc := t.msc, hcm := t.hcm } ∧
            t.sbm = { s.sbm with slots := s.sbm.slots.set i Slot.free } ∧ (t.row r).unverified = (s.row r).unverified - 1 ∧
            t.partDir r = some y ∧ y.segments = d.segments + 1 ∧ y.used = l.count ∧
            y.objects = max d.objects (objectsEnd ((s.slot i).header.firstObject.getD 0) (s.slot i).entries) ∧
            y.marks = d.marks + newMarks ((s.slot i).header.firstObject.getD 0) d.objects (s.slot i).entries ∧
            t.hcm = { s.hcm with
              verified := s.hcm.verified + 1, extraAttempts := s.hcm.extraAttempts + (s.slot i).header.attempt
              rewrites := s.hcm.rewrites + (s.slot i).rewritesMade }))) ∧
    (∀ e seg i, s.awaitedRewrite seg i = some e → e.row = r → (s.writePoint r).2 < min 48000 (e.offset + 33) →
      ((s.wvu.rewrites.filter (fun x => x != e)).any (fun x => x.row == r && x.segment == seg) = true → exec (.rewriteOutcome seg i true) s = .next
        (s.setWvu { s.wvu with rewrites := s.wvu.rewrites.filter (fun x => x != e) })) ∧
      (e.made < 3 → exec (.rewriteOutcome seg i false) s = .next
        (s.setWvu { s.wvu with rewrites := s.wvu.rewrites.map (fun x => if x = e then { x with due := true } else x) }))) ∧
    (∀ e seg i, s.awaitedRewrite seg i = some e → e.row = r → 3 ≤ e.made →
      (k < 16 → (∀ x ∈ s.sbm.slots, State.requeues r seg x = true → x.header.attempt < 2) → s.msc.head = s.writePlace r → 16 ≤ s.laneFree r →
        let behind := fun (x : Part) (n : Nat) => x == r && decide (seg ≤ n)
        let u : State := { s with
          sbm := { s.sbm with
            slots := s.sbm.slots.map (fun x =>
              if State.requeues r seg x then { x with state := .ready, header := { x.header with attempt := x.header.attempt + 1 } } else x) }
          wvu := { s.wvu with
            window := s.wvu.window.filter (fun x => !behind x.row x.segment)
            rewrites := s.wvu.rewrites.filter (fun x => !behind x.row x.segment)
            completion := s.wvu.completion.filter (fun x => !behind x.row x.segment) } }
        ∀ n, u.firstDue r = none → u.nextReady r = some n → ∃ t, exec (.rewriteOutcome seg i false) s = .next t ∧
          t = { u with msc := t.msc, wvu := t.wvu, hcm := t.hcm, sst := t.sst, lp := t.lp } ∧
          t.wvu = { u.wvu with rate := t.wvu.rate } ∧ t.msc.activity = .writing (.segment n) ∧ t.msc.turn = s.msc.turn) ∧
      ((∃ x ∈ s.sbm.slots, State.requeues r seg x = true ∧ 2 ≤ x.header.attempt) → (s.row r).holder = some p → (s.row r).state.isOpen = true →
        ∃ t, exec (.rewriteOutcome seg i false) s = .next t ∧ s.SessionLost r p .writeFault t ∧ t.msc.turn = none ∧ t.msc.motion = .stopped ∧
          t.cart = s.cart))

/-! ## Rules stated whole -/

/-- R193: power-on sets the reset cause set to POWER_ON alone; a Device Reset from the reset line adds RESET_LINE and one from the library command RESET_COMMAND, beside what is held; the set is reported in the Library group of Query Drive and emptied when that group is answered to the library; a port reset and a library line reset leave it as it is. -/
def Obligations.CausesAreKept : Prop :=
  ∀ (s : State),
    (∀ c h b, ∃ t, exec (.powerOn c h b) s = .next t ∧ t.sst.causes = { powerOn := true, resetLine := false, resetCommand := false }) ∧
    (s.resetLine = false → ∃ t, exec .resetLine s = .next t ∧ t.sst.causes = { s.sst.causes with resetLine := true }) ∧
    (s.resetLine = false → ∃ t, exec .deviceReset s = .next t ∧ t.sst.causes = { s.sst.causes with resetCommand := true }) ∧
    (∀ n, s.resetLine = false → n ≤ 1 → ∃ t, exec (.libraryQueryDrive 7 n) s = .next t ∧
      t.lp.tx = s.lp.tx ++ [{ result := .ok, code := 10, detail := .report (.library s.lp.summary s.sst.causes) }] ∧
      t.sst = { s.sst with causes := { powerOn := false, resetLine := false, resetCommand := false } }) ∧
    (∀ p, ∃ t, exec (.portReset p) s = .next t ∧ t.sst.causes = s.sst.causes) ∧
    (∃ t, exec .libraryLineReset s = .next t ∧ t.sst.causes = s.sst.causes)

/-- R165: a checkpoint that ends in failure or timeout, the closing one as any other, leaves the tag as it was, adds 1 to the failure count and makes nothing pending, and the next request makes a new one; when the count reaches 3, Directory At Risk goes on and the summary gains DIRECTORY_AT_RISK, which is not raised again while the status stays on; a done checkpoint turns the status off, with the count at 0, so that the count may reach 3 again. The ends of a stale mark and of a library access leave count and status as they are. -/
def Obligations.CheckpointFailuresAreCounted : Prop :=
  ∀ (x : Transaction) (s : State), s.Calm → s.dtc.reader = some x →
    (∀ b, x.kind = .checkpoint b →
      (∀ i, i = .tagTransactionDone false ∨ i = .tagTransactionTimeout → ∃ t, exec i s = .next t ∧
        t.cart = s.cart ∧ t.dtc.reader = none ∧ t.dtc.failures = s.dtc.failures + 1 ∧ t.dtc.pendCheckpoint = s.dtc.pendCheckpoint ∧
        (t.dtc.interval.isSome = true → t.dtc.copy.isSome = true → ∃ u, exec .intervalTimerExpiry t = .next u ∧ u.dtc.pendCheckpoint.isSome = true) ∧
        (s.dtc.atRisk = false → s.dtc.failures < 2 → t.dtc.atRisk = false ∧ t.lp.summary.directoryAtRisk = s.lp.summary.directoryAtRisk) ∧
        (s.dtc.atRisk = false → s.dtc.failures = 2 → t.dtc.atRisk = true ∧ t.lp.summary.directoryAtRisk = true) ∧
        (s.dtc.atRisk = true → t.dtc.atRisk = true ∧ t.lp.summary.directoryAtRisk = s.lp.summary.directoryAtRisk)) ∧
      (∃ t, exec (.tagTransactionDone true) s = .next t ∧ t.dtc.atRisk = false ∧ t.dtc.failures = 0)) ∧
    (∀ ok, x.kind = .staleMark ∨ (∃ a, x.kind = .library a) → ∃ t, exec (.tagTransactionDone ok) s = .next t ∧
      t.dtc.failures = s.dtc.failures ∧ t.dtc.atRisk = s.dtc.atRisk)

/-- R190: Set Port Options taken into service sets its port's three options at once and ends OK with the options now held, releasing the port's CACHED slots where read-ahead is turned off, at once without a pin and otherwise when their pins are gone, for which they are marked (R114), where the option was off already too by the model's own choice (log entry 63); a session stays as it is; a Write Record taken afterwards, whether it opens a session or continues the one open, keeps the compression and acknowledgement options as they then stand (R89, R131); the options are reported in the Port group of Query Drive, and return to compression on, Buffered and read-ahead on at power-on and at a port reset. -/
def Obligations.OptionsAreSet : Prop :=
  ∀ (p : Port) (tag : Nat) (s : State),
    (∀ c m r, s.Serves p → s.Calm → c ≤ 1 → m ≤ 1 → r ≤ 1 →
      let x : Options := { compression := c == 1, verified := m == 1, readAhead := r == 1 }
      let t := s.ended p 14 tag .ok false (.options x)
      let kept := fun (y : Slot) => if y.state = .cached ∧ y.owner = .port p then (if y.pinA ∨ y.pinB then { y with releasing := true } else Slot.free) else y
      let u : State :=
        { t with
          ports := s.ports.set p { t.port p with options := x }
          sbm := { s.sbm with slots := if x.readAhead then s.sbm.slots else s.sbm.slots.map kept } }
      exec (.setPortOptions p tag c m r) s = .next u) ∧
    (∀ n i g d y, s.Serves p → s.Calm → s.sessionOf p = none → 1 ≤ n → n ≤ 1048576 → s.context p = some y → s.Resolves p y.logical g d → g.right = .readWrite →
      s.writeProtected g.part = false → (s.row g.part).state = .none → y.object = d.objects → s.hcm.level ≠ .required →
      s.admits g.part (s.newSlots g.part (.writeRecord n)) = true → s.assemblingOf g.part = none → s.sbm.requests = [] → slotForWriting s.sbm.slots = some i →
      ∃ t c, exec (.writeRecord p tag n) s = .next t ∧ (t.port p).inService = some c ∧
        c.compress = (s.port p).options.compression ∧ c.verified = (s.port p).options.verified) ∧
    (∀ n g d y, s.Serves p → s.Calm → s.sessionOf p = some g.part → 1 ≤ n → n ≤ 1048576 → s.context p = some y → s.Resolves p y.logical g d → g.right = .readWrite →
      (s.row g.part).state.isActive = true → (s.row g.part).closeDue = .no → y.object = (s.row g.part).firstObject + (s.row g.part).admitted →
      s.admits g.part (s.newSlots g.part (.writeRecord n)) = true → s.assemblingOf g.part ≠ none → s.rcx.intake.get p = .empty →
      ∃ t c, exec (.writeRecord p tag n) s = .next t ∧ (t.port p).inService = some c ∧
        c.compress = (s.port p).options.compression ∧ c.verified = (s.port p).options.verified ∧ (t.port p).options = (s.port p).options) ∧
    (s.resetLine = false → s.tagInUse p tag = false → ∃ r, exec (.queryDrive p tag 3) s = .next (s.setPort p { s.port p with tx := (s.port p).tx ++ [.report tag (.port r)] }) ∧
      r.options = (s.port p).options) ∧
    (∃ t, exec (.portReset p) s = .next t ∧ (t.port p).options = { compression := true, verified := false, readAhead := true }) ∧
    (∀ g h b, ∃ t, exec (.powerOn g h b) s = .next t ∧ (t.port p).options = { compression := true, verified := false, readAhead := true })
end

