-- ==== Sys2Proof/Laws/State.lean ====
section
/-! SUPPORT. One lemma for each field under each setter of `State`, and the reads of ports, rows and partitions under their replacement. -/

namespace Sys2Proof.Machine

/-! ## Containers -/

@[simp] theorem PerPort.get_set_same {α : Type} (x : PerPort α) (p : Port) (v : α) : (x.set p v).get p = v := by
  cases p <;> rfl

theorem PerPort.get_set_other {α : Type} (x : PerPort α) {p q : Port} (v : α) (h : p ≠ q) : (x.set p v).get q = x.get q := by
  cases p <;> cases q <;> first | rfl | exact absurd rfl h

@[simp] theorem PerPart.get_set_same {α : Type} (x : PerPart α) (r : Part) (v : α) : (x.set r v).get r = v := by
  match r with
  | 0 => rfl
  | 1 => rfl
  | 2 => rfl
  | 3 => rfl

theorem PerPart.get_set_other {α : Type} (x : PerPart α) {r q : Part} (v : α) (h : r ≠ q) : (x.set r v).get q = x.get q := by
  match r, q with
  | 0, 0 | 1, 1 | 2, 2 | 3, 3 => exact absurd rfl h
  | 0, 1 | 0, 2 | 0, 3 | 1, 0 | 1, 2 | 1, 3 | 2, 0 | 2, 1 | 2, 3 | 3, 0 | 3, 1 | 3, 2 => rfl

namespace State


/-! ## setPending -/

@[simp] theorem setPending_pending (s : State) (x : List Instr) : (s.setPending x).pending = x := rfl
@[simp] theorem setPending_lsq (s : State) (x : List Instr) : (s.setPending x).lsq = s.lsq := rfl
@[simp] theorem setPending_cart (s : State) (x : List Instr) : (s.setPending x).cart = s.cart := rfl
@[simp] theorem setPending_ports (s : State) (x : List Instr) : (s.setPending x).ports = s.ports := rfl
@[simp] theorem setPending_rows (s : State) (x : List Instr) : (s.setPending x).rows = s.rows := rfl
@[simp] theorem setPending_msc (s : State) (x : List Instr) : (s.setPending x).msc = s.msc := rfl
@[simp] theorem setPending_rcx (s : State) (x : List Instr) : (s.setPending x).rcx = s.rcx := rfl
@[simp] theorem setPending_sbm (s : State) (x : List Instr) : (s.setPending x).sbm = s.sbm := rfl
@[simp] theorem setPending_wvu (s : State) (x : List Instr) : (s.setPending x).wvu = s.wvu := rfl
@[simp] theorem setPending_rdu (s : State) (x : List Instr) : (s.setPending x).rdu = s.rdu := rfl
@[simp] theorem setPending_dtc (s : State) (x : List Instr) : (s.setPending x).dtc = s.dtc := rfl
@[simp] theorem setPending_hcm (s : State) (x : List Instr) : (s.setPending x).hcm = s.hcm := rfl
@[simp] theorem setPending_sst (s : State) (x : List Instr) : (s.setPending x).sst = s.sst := rfl
@[simp] theorem setPending_lp (s : State) (x : List Instr) : (s.setPending x).lp = s.lp := rfl
@[simp] theorem setPending_resetLine (s : State) (x : List Instr) : (s.setPending x).resetLine = s.resetLine := rfl
@[simp] theorem setPending_clock (s : State) (x : List Instr) : (s.setPending x).clock = s.clock := rfl
@[simp] theorem setPending_free (s : State) (x : List Instr) : (s.setPending x).free = s.free := rfl

/-! ## setLsq -/

@[simp] theorem setLsq_pending (s : State) (x : Lsq) : (s.setLsq x).pending = s.pending := rfl
@[simp] theorem setLsq_lsq (s : State) (x : Lsq) : (s.setLsq x).lsq = x := rfl
@[simp] theorem setLsq_cart (s : State) (x : Lsq) : (s.setLsq x).cart = s.cart := rfl
@[simp] theorem setLsq_ports (s : State) (x : Lsq) : (s.setLsq x).ports = s.ports := rfl
@[simp] theorem setLsq_rows (s : State) (x : Lsq) : (s.setLsq x).rows = s.rows := rfl
@[simp] theorem setLsq_msc (s : State) (x : Lsq) : (s.setLsq x).msc = s.msc := rfl
@[simp] theorem setLsq_rcx (s : State) (x : Lsq) : (s.setLsq x).rcx = s.rcx := rfl
@[simp] theorem setLsq_sbm (s : State) (x : Lsq) : (s.setLsq x).sbm = s.sbm := rfl
@[simp] theorem setLsq_wvu (s : State) (x : Lsq) : (s.setLsq x).wvu = s.wvu := rfl
@[simp] theorem setLsq_rdu (s : State) (x : Lsq) : (s.setLsq x).rdu = s.rdu := rfl
@[simp] theorem setLsq_dtc (s : State) (x : Lsq) : (s.setLsq x).dtc = s.dtc := rfl
@[simp] theorem setLsq_hcm (s : State) (x : Lsq) : (s.setLsq x).hcm = s.hcm := rfl
@[simp] theorem setLsq_sst (s : State) (x : Lsq) : (s.setLsq x).sst = s.sst := rfl
@[simp] theorem setLsq_lp (s : State) (x : Lsq) : (s.setLsq x).lp = s.lp := rfl
@[simp] theorem setLsq_resetLine (s : State) (x : Lsq) : (s.setLsq x).resetLine = s.resetLine := rfl
@[simp] theorem setLsq_clock (s : State) (x : Lsq) : (s.setLsq x).clock = s.clock := rfl
@[simp] theorem setLsq_free (s : State) (x : Lsq) : (s.setLsq x).free = s.free := rfl

/-! ## setCart -/

@[simp] theorem setCart_pending (s : State) (x : Cart) : (s.setCart x).pending = s.pending := rfl
@[simp] theorem setCart_lsq (s : State) (x : Cart) : (s.setCart x).lsq = s.lsq := rfl
@[simp] theorem setCart_cart (s : State) (x : Cart) : (s.setCart x).cart = x := rfl
@[simp] theorem setCart_ports (s : State) (x : Cart) : (s.setCart x).ports = s.ports := rfl
@[simp] theorem setCart_rows (s : State) (x : Cart) : (s.setCart x).rows = s.rows := rfl
@[simp] theorem setCart_msc (s : State) (x : Cart) : (s.setCart x).msc = s.msc := rfl
@[simp] theorem setCart_rcx (s : State) (x : Cart) : (s.setCart x).rcx = s.rcx := rfl
@[simp] theorem setCart_sbm (s : State) (x : Cart) : (s.setCart x).sbm = s.sbm := rfl
@[simp] theorem setCart_wvu (s : State) (x : Cart) : (s.setCart x).wvu = s.wvu := rfl
@[simp] theorem setCart_rdu (s : State) (x : Cart) : (s.setCart x).rdu = s.rdu := rfl
@[simp] theorem setCart_dtc (s : State) (x : Cart) : (s.setCart x).dtc = s.dtc := rfl
@[simp] theorem setCart_hcm (s : State) (x : Cart) : (s.setCart x).hcm = s.hcm := rfl
@[simp] theorem setCart_sst (s : State) (x : Cart) : (s.setCart x).sst = s.sst := rfl
@[simp] theorem setCart_lp (s : State) (x : Cart) : (s.setCart x).lp = s.lp := rfl
@[simp] theorem setCart_resetLine (s : State) (x : Cart) : (s.setCart x).resetLine = s.resetLine := rfl
@[simp] theorem setCart_clock (s : State) (x : Cart) : (s.setCart x).clock = s.clock := rfl
@[simp] theorem setCart_free (s : State) (x : Cart) : (s.setCart x).free = s.free := rfl

/-! ## setPorts -/

@[simp] theorem setPorts_pending (s : State) (x : PerPort PortState) : (s.setPorts x).pending = s.pending := rfl
@[simp] theorem setPorts_lsq (s : State) (x : PerPort PortState) : (s.setPorts x).lsq = s.lsq := rfl
@[simp] theorem setPorts_cart (s : State) (x : PerPort PortState) : (s.setPorts x).cart = s.cart := rfl
@[simp] theorem setPorts_ports (s : State) (x : PerPort PortState) : (s.setPorts x).ports = x := rfl
@[simp] theorem setPorts_rows (s : State) (x : PerPort PortState) : (s.setPorts x).rows = s.rows := rfl
@[simp] theorem setPorts_msc (s : State) (x : PerPort PortState) : (s.setPorts x).msc = s.msc := rfl
@[simp] theorem setPorts_rcx (s : State) (x : PerPort PortState) : (s.setPorts x).rcx = s.rcx := rfl
@[simp] theorem setPorts_sbm (s : State) (x : PerPort PortState) : (s.setPorts x).sbm = s.sbm := rfl
@[simp] theorem setPorts_wvu (s : State) (x : PerPort PortState) : (s.setPorts x).wvu = s.wvu := rfl
@[simp] theorem setPorts_rdu (s : State) (x : PerPort PortState) : (s.setPorts x).rdu = s.rdu := rfl
@[simp] theorem setPorts_dtc (s : State) (x : PerPort PortState) : (s.setPorts x).dtc = s.dtc := rfl
@[simp] theorem setPorts_hcm (s : State) (x : PerPort PortState) : (s.setPorts x).hcm = s.hcm := rfl
@[simp] theorem setPorts_sst (s : State) (x : PerPort PortState) : (s.setPorts x).sst = s.sst := rfl
@[simp] theorem setPorts_lp (s : State) (x : PerPort PortState) : (s.setPorts x).lp = s.lp := rfl
@[simp] theorem setPorts_resetLine (s : State) (x : PerPort PortState) : (s.setPorts x).resetLine = s.resetLine := rfl
@[simp] theorem setPorts_clock (s : State) (x : PerPort PortState) : (s.setPorts x).clock = s.clock := rfl
@[simp] theorem setPorts_free (s : State) (x : PerPort PortState) : (s.setPorts x).free = s.free := rfl

/-! ## setRows -/

@[simp] theorem setRows_pending (s : State) (x : PerPart Row) : (s.setRows x).pending = s.pending := rfl
@[simp] theorem setRows_lsq (s : State) (x : PerPart Row) : (s.setRows x).lsq = s.lsq := rfl
@[simp] theorem setRows_cart (s : State) (x : PerPart Row) : (s.setRows x).cart = s.cart := rfl
@[simp] theorem setRows_ports (s : State) (x : PerPart Row) : (s.setRows x).ports = s.ports := rfl
@[simp] theorem setRows_rows (s : State) (x : PerPart Row) : (s.setRows x).rows = x := rfl
@[simp] theorem setRows_msc (s : State) (x : PerPart Row) : (s.setRows x).msc = s.msc := rfl
@[simp] theorem setRows_rcx (s : State) (x : PerPart Row) : (s.setRows x).rcx = s.rcx := rfl
@[simp] theorem setRows_sbm (s : State) (x : PerPart Row) : (s.setRows x).sbm = s.sbm := rfl
@[simp] theorem setRows_wvu (s : State) (x : PerPart Row) : (s.setRows x).wvu = s.wvu := rfl
@[simp] theorem setRows_rdu (s : State) (x : PerPart Row) : (s.setRows x).rdu = s.rdu := rfl
@[simp] theorem setRows_dtc (s : State) (x : PerPart Row) : (s.setRows x).dtc = s.dtc := rfl
@[simp] theorem setRows_hcm (s : State) (x : PerPart Row) : (s.setRows x).hcm = s.hcm := rfl
@[simp] theorem setRows_sst (s : State) (x : PerPart Row) : (s.setRows x).sst = s.sst := rfl
@[simp] theorem setRows_lp (s : State) (x : PerPart Row) : (s.setRows x).lp = s.lp := rfl
@[simp] theorem setRows_resetLine (s : State) (x : PerPart Row) : (s.setRows x).resetLine = s.resetLine := rfl
@[simp] theorem setRows_clock (s : State) (x : PerPart Row) : (s.setRows x).clock = s.clock := rfl
@[simp] theorem setRows_free (s : State) (x : PerPart Row) : (s.setRows x).free = s.free := rfl

/-! ## setMsc -/

@[simp] theorem setMsc_pending (s : State) (x : Msc) : (s.setMsc x).pending = s.pending := rfl
@[simp] theorem setMsc_lsq (s : State) (x : Msc) : (s.setMsc x).lsq = s.lsq := rfl
@[simp] theorem setMsc_cart (s : State) (x : Msc) : (s.setMsc x).cart = s.cart := rfl
@[simp] theorem setMsc_ports (s : State) (x : Msc) : (s.setMsc x).ports = s.ports := rfl
@[simp] theorem setMsc_rows (s : State) (x : Msc) : (s.setMsc x).rows = s.rows := rfl
@[simp] theorem setMsc_msc (s : State) (x : Msc) : (s.setMsc x).msc = x := rfl
@[simp] theorem setMsc_rcx (s : State) (x : Msc) : (s.setMsc x).rcx = s.rcx := rfl
@[simp] theorem setMsc_sbm (s : State) (x : Msc) : (s.setMsc x).sbm = s.sbm := rfl
@[simp] theorem setMsc_wvu (s : State) (x : Msc) : (s.setMsc x).wvu = s.wvu := rfl
@[simp] theorem setMsc_rdu (s : State) (x : Msc) : (s.setMsc x).rdu = s.rdu := rfl
@[simp] theorem setMsc_dtc (s : State) (x : Msc) : (s.setMsc x).dtc = s.dtc := rfl
@[simp] theorem setMsc_hcm (s : State) (x : Msc) : (s.setMsc x).hcm = s.hcm := rfl
@[simp] theorem setMsc_sst (s : State) (x : Msc) : (s.setMsc x).sst = s.sst := rfl
@[simp] theorem setMsc_lp (s : State) (x : Msc) : (s.setMsc x).lp = s.lp := rfl
@[simp] theorem setMsc_resetLine (s : State) (x : Msc) : (s.setMsc x).resetLine = s.resetLine := rfl
@[simp] theorem setMsc_clock (s : State) (x : Msc) : (s.setMsc x).clock = s.clock := rfl
@[simp] theorem setMsc_free (s : State) (x : Msc) : (s.setMsc x).free = s.free := rfl

/-! ## setRcx -/

@[simp] theorem setRcx_pending (s : State) (x : Rcx) : (s.setRcx x).pending = s.pending := rfl
@[simp] theorem setRcx_lsq (s : State) (x : Rcx) : (s.setRcx x).lsq = s.lsq := rfl
@[simp] theorem setRcx_cart (s : State) (x : Rcx) : (s.setRcx x).cart = s.cart := rfl
@[simp] theorem setRcx_ports (s : State) (x : Rcx) : (s.setRcx x).ports = s.ports := rfl
@[simp] theorem setRcx_rows (s : State) (x : Rcx) : (s.setRcx x).rows = s.rows := rfl
@[simp] theorem setRcx_msc (s : State) (x : Rcx) : (s.setRcx x).msc = s.msc := rfl
@[simp] theorem setRcx_rcx (s : State) (x : Rcx) : (s.setRcx x).rcx = x := rfl
@[simp] theorem setRcx_sbm (s : State) (x : Rcx) : (s.setRcx x).sbm = s.sbm := rfl
@[simp] theorem setRcx_wvu (s : State) (x : Rcx) : (s.setRcx x).wvu = s.wvu := rfl
@[simp] theorem setRcx_rdu (s : State) (x : Rcx) : (s.setRcx x).rdu = s.rdu := rfl
@[simp] theorem setRcx_dtc (s : State) (x : Rcx) : (s.setRcx x).dtc = s.dtc := rfl
@[simp] theorem setRcx_hcm (s : State) (x : Rcx) : (s.setRcx x).hcm = s.hcm := rfl
@[simp] theorem setRcx_sst (s : State) (x : Rcx) : (s.setRcx x).sst = s.sst := rfl
@[simp] theorem setRcx_lp (s : State) (x : Rcx) : (s.setRcx x).lp = s.lp := rfl
@[simp] theorem setRcx_resetLine (s : State) (x : Rcx) : (s.setRcx x).resetLine = s.resetLine := rfl
@[simp] theorem setRcx_clock (s : State) (x : Rcx) : (s.setRcx x).clock = s.clock := rfl
@[simp] theorem setRcx_free (s : State) (x : Rcx) : (s.setRcx x).free = s.free := rfl

/-! ## setSbm -/

@[simp] theorem setSbm_pending (s : State) (x : Sbm) : (s.setSbm x).pending = s.pending := rfl
@[simp] theorem setSbm_lsq (s : State) (x : Sbm) : (s.setSbm x).lsq = s.lsq := rfl
@[simp] theorem setSbm_cart (s : State) (x : Sbm) : (s.setSbm x).cart = s.cart := rfl
@[simp] theorem setSbm_ports (s : State) (x : Sbm) : (s.setSbm x).ports = s.ports := rfl
@[simp] theorem setSbm_rows (s : State) (x : Sbm) : (s.setSbm x).rows = s.rows := rfl
@[simp] theorem setSbm_msc (s : State) (x : Sbm) : (s.setSbm x).msc = s.msc := rfl
@[simp] theorem setSbm_rcx (s : State) (x : Sbm) : (s.setSbm x).rcx = s.rcx := rfl
@[simp] theorem setSbm_sbm (s : State) (x : Sbm) : (s.setSbm x).sbm = x := rfl
@[simp] theorem setSbm_wvu (s : State) (x : Sbm) : (s.setSbm x).wvu = s.wvu := rfl
@[simp] theorem setSbm_rdu (s : State) (x : Sbm) : (s.setSbm x).rdu = s.rdu := rfl
@[simp] theorem setSbm_dtc (s : State) (x : Sbm) : (s.setSbm x).dtc = s.dtc := rfl
@[simp] theorem setSbm_hcm (s : State) (x : Sbm) : (s.setSbm x).hcm = s.hcm := rfl
@[simp] theorem setSbm_sst (s : State) (x : Sbm) : (s.setSbm x).sst = s.sst := rfl
@[simp] theorem setSbm_lp (s : State) (x : Sbm) : (s.setSbm x).lp = s.lp := rfl
@[simp] theorem setSbm_resetLine (s : State) (x : Sbm) : (s.setSbm x).resetLine = s.resetLine := rfl
@[simp] theorem setSbm_clock (s : State) (x : Sbm) : (s.setSbm x).clock = s.clock := rfl
@[simp] theorem setSbm_free (s : State) (x : Sbm) : (s.setSbm x).free = s.free := rfl

/-! ## setWvu -/

@[simp] theorem setWvu_pending (s : State) (x : Wvu) : (s.setWvu x).pending = s.pending := rfl
@[simp] theorem setWvu_lsq (s : State) (x : Wvu) : (s.setWvu x).lsq = s.lsq := rfl
@[simp] theorem setWvu_cart (s : State) (x : Wvu) : (s.setWvu x).cart = s.cart := rfl
@[simp] theorem setWvu_ports (s : State) (x : Wvu) : (s.setWvu x).ports = s.ports := rfl
@[simp] theorem setWvu_rows (s : State) (x : Wvu) : (s.setWvu x).rows = s.rows := rfl
@[simp] theorem setWvu_msc (s : State) (x : Wvu) : (s.setWvu x).msc = s.msc := rfl
@[simp] theorem setWvu_rcx (s : State) (x : Wvu) : (s.setWvu x).rcx = s.rcx := rfl
@[simp] theorem setWvu_sbm (s : State) (x : Wvu) : (s.setWvu x).sbm = s.sbm := rfl
@[simp] theorem setWvu_wvu (s : State) (x : Wvu) : (s.setWvu x).wvu = x := rfl
@[simp] theorem setWvu_rdu (s : State) (x : Wvu) : (s.setWvu x).rdu = s.rdu := rfl
@[simp] theorem setWvu_dtc (s : State) (x : Wvu) : (s.setWvu x).dtc = s.dtc := rfl
@[simp] theorem setWvu_hcm (s : State) (x : Wvu) : (s.setWvu x).hcm = s.hcm := rfl
@[simp] theorem setWvu_sst (s : State) (x : Wvu) : (s.setWvu x).sst = s.sst := rfl
@[simp] theorem setWvu_lp (s : State) (x : Wvu) : (s.setWvu x).lp = s.lp := rfl
@[simp] theorem setWvu_resetLine (s : State) (x : Wvu) : (s.setWvu x).resetLine = s.resetLine := rfl
@[simp] theorem setWvu_clock (s : State) (x : Wvu) : (s.setWvu x).clock = s.clock := rfl
@[simp] theorem setWvu_free (s : State) (x : Wvu) : (s.setWvu x).free = s.free := rfl

/-! ## setRdu -/

@[simp] theorem setRdu_pending (s : State) (x : Rdu) : (s.setRdu x).pending = s.pending := rfl
@[simp] theorem setRdu_lsq (s : State) (x : Rdu) : (s.setRdu x).lsq = s.lsq := rfl
@[simp] theorem setRdu_cart (s : State) (x : Rdu) : (s.setRdu x).cart = s.cart := rfl
@[simp] theorem setRdu_ports (s : State) (x : Rdu) : (s.setRdu x).ports = s.ports := rfl
@[simp] theorem setRdu_rows (s : State) (x : Rdu) : (s.setRdu x).rows = s.rows := rfl
@[simp] theorem setRdu_msc (s : State) (x : Rdu) : (s.setRdu x).msc = s.msc := rfl
@[simp] theorem setRdu_rcx (s : State) (x : Rdu) : (s.setRdu x).rcx = s.rcx := rfl
@[simp] theorem setRdu_sbm (s : State) (x : Rdu) : (s.setRdu x).sbm = s.sbm := rfl
@[simp] theorem setRdu_wvu (s : State) (x : Rdu) : (s.setRdu x).wvu = s.wvu := rfl
@[simp] theorem setRdu_rdu (s : State) (x : Rdu) : (s.setRdu x).rdu = x := rfl
@[simp] theorem setRdu_dtc (s : State) (x : Rdu) : (s.setRdu x).dtc = s.dtc := rfl
@[simp] theorem setRdu_hcm (s : State) (x : Rdu) : (s.setRdu x).hcm = s.hcm := rfl
@[simp] theorem setRdu_sst (s : State) (x : Rdu) : (s.setRdu x).sst = s.sst := rfl
@[simp] theorem setRdu_lp (s : State) (x : Rdu) : (s.setRdu x).lp = s.lp := rfl
@[simp] theorem setRdu_resetLine (s : State) (x : Rdu) : (s.setRdu x).resetLine = s.resetLine := rfl
@[simp] theorem setRdu_clock (s : State) (x : Rdu) : (s.setRdu x).clock = s.clock := rfl
@[simp] theorem setRdu_free (s : State) (x : Rdu) : (s.setRdu x).free = s.free := rfl

/-! ## setDtc -/

@[simp] theorem setDtc_pending (s : State) (x : Dtc) : (s.setDtc x).pending = s.pending := rfl
@[simp] theorem setDtc_lsq (s : State) (x : Dtc) : (s.setDtc x).lsq = s.lsq := rfl
@[simp] theorem setDtc_cart (s : State) (x : Dtc) : (s.setDtc x).cart = s.cart := rfl
@[simp] theorem setDtc_ports (s : State) (x : Dtc) : (s.setDtc x).ports = s.ports := rfl
@[simp] theorem setDtc_rows (s : State) (x : Dtc) : (s.setDtc x).rows = s.rows := rfl
@[simp] theorem setDtc_msc (s : State) (x : Dtc) : (s.setDtc x).msc = s.msc := rfl
@[simp] theorem setDtc_rcx (s : State) (x : Dtc) : (s.setDtc x).rcx = s.rcx := rfl
@[simp] theorem setDtc_sbm (s : State) (x : Dtc) : (s.setDtc x).sbm = s.sbm := rfl
@[simp] theorem setDtc_wvu (s : State) (x : Dtc) : (s.setDtc x).wvu = s.wvu := rfl
@[simp] theorem setDtc_rdu (s : State) (x : Dtc) : (s.setDtc x).rdu = s.rdu := rfl
@[simp] theorem setDtc_dtc (s : State) (x : Dtc) : (s.setDtc x).dtc = x := rfl
@[simp] theorem setDtc_hcm (s : State) (x : Dtc) : (s.setDtc x).hcm = s.hcm := rfl
@[simp] theorem setDtc_sst (s : State) (x : Dtc) : (s.setDtc x).sst = s.sst := rfl
@[simp] theorem setDtc_lp (s : State) (x : Dtc) : (s.setDtc x).lp = s.lp := rfl
@[simp] theorem setDtc_resetLine (s : State) (x : Dtc) : (s.setDtc x).resetLine = s.resetLine := rfl
@[simp] theorem setDtc_clock (s : State) (x : Dtc) : (s.setDtc x).clock = s.clock := rfl
@[simp] theorem setDtc_free (s : State) (x : Dtc) : (s.setDtc x).free = s.free := rfl

/-! ## setHcm -/

@[simp] theorem setHcm_pending (s : State) (x : Hcm) : (s.setHcm x).pending = s.pending := rfl
@[simp] theorem setHcm_lsq (s : State) (x : Hcm) : (s.setHcm x).lsq = s.lsq := rfl
@[simp] theorem setHcm_cart (s : State) (x : Hcm) : (s.setHcm x).cart = s.cart := rfl
@[simp] theorem setHcm_ports (s : State) (x : Hcm) : (s.setHcm x).ports = s.ports := rfl
@[simp] theorem setHcm_rows (s : State) (x : Hcm) : (s.setHcm x).rows = s.rows := rfl
@[simp] theorem setHcm_msc (s : State) (x : Hcm) : (s.setHcm x).msc = s.msc := rfl
@[simp] theorem setHcm_rcx (s : State) (x : Hcm) : (s.setHcm x).rcx = s.rcx := rfl
@[simp] theorem setHcm_sbm (s : State) (x : Hcm) : (s.setHcm x).sbm = s.sbm := rfl
@[simp] theorem setHcm_wvu (s : State) (x : Hcm) : (s.setHcm x).wvu = s.wvu := rfl
@[simp] theorem setHcm_rdu (s : State) (x : Hcm) : (s.setHcm x).rdu = s.rdu := rfl
@[simp] theorem setHcm_dtc (s : State) (x : Hcm) : (s.setHcm x).dtc = s.dtc := rfl
@[simp] theorem setHcm_hcm (s : State) (x : Hcm) : (s.setHcm x).hcm = x := rfl
@[simp] theorem setHcm_sst (s : State) (x : Hcm) : (s.setHcm x).sst = s.sst := rfl
@[simp] theorem setHcm_lp (s : State) (x : Hcm) : (s.setHcm x).lp = s.lp := rfl
@[simp] theorem setHcm_resetLine (s : State) (x : Hcm) : (s.setHcm x).resetLine = s.resetLine := rfl
@[simp] theorem setHcm_clock (s : State) (x : Hcm) : (s.setHcm x).clock = s.clock := rfl
@[simp] theorem setHcm_free (s : State) (x : Hcm) : (s.setHcm x).free = s.free := rfl

/-! ## setSst -/

@[simp] theorem setSst_pending (s : State) (x : Sst) : (s.setSst x).pending = s.pending := rfl
@[simp] theorem setSst_lsq (s : State) (x : Sst) : (s.setSst x).lsq = s.lsq := rfl
@[simp] theorem setSst_cart (s : State) (x : Sst) : (s.setSst x).cart = s.cart := rfl
@[simp] theorem setSst_ports (s : State) (x : Sst) : (s.setSst x).ports = s.ports := rfl
@[simp] theorem setSst_rows (s : State) (x : Sst) : (s.setSst x).rows = s.rows := rfl
@[simp] theorem setSst_msc (s : State) (x : Sst) : (s.setSst x).msc = s.msc := rfl
@[simp] theorem setSst_rcx (s : State) (x : Sst) : (s.setSst x).rcx = s.rcx := rfl
@[simp] theorem setSst_sbm (s : State) (x : Sst) : (s.setSst x).sbm = s.sbm := rfl
@[simp] theorem setSst_wvu (s : State) (x : Sst) : (s.setSst x).wvu = s.wvu := rfl
@[simp] theorem setSst_rdu (s : State) (x : Sst) : (s.setSst x).rdu = s.rdu := rfl
@[simp] theorem setSst_dtc (s : State) (x : Sst) : (s.setSst x).dtc = s.dtc := rfl
@[simp] theorem setSst_hcm (s : State) (x : Sst) : (s.setSst x).hcm = s.hcm := rfl
@[simp] theorem setSst_sst (s : State) (x : Sst) : (s.setSst x).sst = x := rfl
@[simp] theorem setSst_lp (s : State) (x : Sst) : (s.setSst x).lp = s.lp := rfl
@[simp] theorem setSst_resetLine (s : State) (x : Sst) : (s.setSst x).resetLine = s.resetLine := rfl
@[simp] theorem setSst_clock (s : State) (x : Sst) : (s.setSst x).clock = s.clock := rfl
@[simp] theorem setSst_free (s : State) (x : Sst) : (s.setSst x).free = s.free := rfl

/-! ## setLp -/

@[simp] theorem setLp_pending (s : State) (x : Lp) : (s.setLp x).pending = s.pending := rfl
@[simp] theorem setLp_lsq (s : State) (x : Lp) : (s.setLp x).lsq = s.lsq := rfl
@[simp] theorem setLp_cart (s : State) (x : Lp) : (s.setLp x).cart = s.cart := rfl
@[simp] theorem setLp_ports (s : State) (x : Lp) : (s.setLp x).ports = s.ports := rfl
@[simp] theorem setLp_rows (s : State) (x : Lp) : (s.setLp x).rows = s.rows := rfl
@[simp] theorem setLp_msc (s : State) (x : Lp) : (s.setLp x).msc = s.msc := rfl
@[simp] theorem setLp_rcx (s : State) (x : Lp) : (s.setLp x).rcx = s.rcx := rfl
@[simp] theorem setLp_sbm (s : State) (x : Lp) : (s.setLp x).sbm = s.sbm := rfl
@[simp] theorem setLp_wvu (s : State) (x : Lp) : (s.setLp x).wvu = s.wvu := rfl
@[simp] theorem setLp_rdu (s : State) (x : Lp) : (s.setLp x).rdu = s.rdu := rfl
@[simp] theorem setLp_dtc (s : State) (x : Lp) : (s.setLp x).dtc = s.dtc := rfl
@[simp] theorem setLp_hcm (s : State) (x : Lp) : (s.setLp x).hcm = s.hcm := rfl
@[simp] theorem setLp_sst (s : State) (x : Lp) : (s.setLp x).sst = s.sst := rfl
@[simp] theorem setLp_lp (s : State) (x : Lp) : (s.setLp x).lp = x := rfl
@[simp] theorem setLp_resetLine (s : State) (x : Lp) : (s.setLp x).resetLine = s.resetLine := rfl
@[simp] theorem setLp_clock (s : State) (x : Lp) : (s.setLp x).clock = s.clock := rfl
@[simp] theorem setLp_free (s : State) (x : Lp) : (s.setLp x).free = s.free := rfl

/-! ## setResetLine -/

@[simp] theorem setResetLine_pending (s : State) (x : Bool) : (s.setResetLine x).pending = s.pending := rfl
@[simp] theorem setResetLine_lsq (s : State) (x : Bool) : (s.setResetLine x).lsq = s.lsq := rfl
@[simp] theorem setResetLine_cart (s : State) (x : Bool) : (s.setResetLine x).cart = s.cart := rfl
@[simp] theorem setResetLine_ports (s : State) (x : Bool) : (s.setResetLine x).ports = s.ports := rfl
@[simp] theorem setResetLine_rows (s : State) (x : Bool) : (s.setResetLine x).rows = s.rows := rfl
@[simp] theorem setResetLine_msc (s : State) (x : Bool) : (s.setResetLine x).msc = s.msc := rfl
@[simp] theorem setResetLine_rcx (s : State) (x : Bool) : (s.setResetLine x).rcx = s.rcx := rfl
@[simp] theorem setResetLine_sbm (s : State) (x : Bool) : (s.setResetLine x).sbm = s.sbm := rfl
@[simp] theorem setResetLine_wvu (s : State) (x : Bool) : (s.setResetLine x).wvu = s.wvu := rfl
@[simp] theorem setResetLine_rdu (s : State) (x : Bool) : (s.setResetLine x).rdu = s.rdu := rfl
@[simp] theorem setResetLine_dtc (s : State) (x : Bool) : (s.setResetLine x).dtc = s.dtc := rfl
@[simp] theorem setResetLine_hcm (s : State) (x : Bool) : (s.setResetLine x).hcm = s.hcm := rfl
@[simp] theorem setResetLine_sst (s : State) (x : Bool) : (s.setResetLine x).sst = s.sst := rfl
@[simp] theorem setResetLine_lp (s : State) (x : Bool) : (s.setResetLine x).lp = s.lp := rfl
@[simp] theorem setResetLine_resetLine (s : State) (x : Bool) : (s.setResetLine x).resetLine = x := rfl
@[simp] theorem setResetLine_clock (s : State) (x : Bool) : (s.setResetLine x).clock = s.clock := rfl
@[simp] theorem setResetLine_free (s : State) (x : Bool) : (s.setResetLine x).free = s.free := rfl

/-! ## setClock -/

@[simp] theorem setClock_pending (s : State) (x : Nat) : (s.setClock x).pending = s.pending := rfl
@[simp] theorem setClock_lsq (s : State) (x : Nat) : (s.setClock x).lsq = s.lsq := rfl
@[simp] theorem setClock_cart (s : State) (x : Nat) : (s.setClock x).cart = s.cart := rfl
@[simp] theorem setClock_ports (s : State) (x : Nat) : (s.setClock x).ports = s.ports := rfl
@[simp] theorem setClock_rows (s : State) (x : Nat) : (s.setClock x).rows = s.rows := rfl
@[simp] theorem setClock_msc (s : State) (x : Nat) : (s.setClock x).msc = s.msc := rfl
@[simp] theorem setClock_rcx (s : State) (x : Nat) : (s.setClock x).rcx = s.rcx := rfl
@[simp] theorem setClock_sbm (s : State) (x : Nat) : (s.setClock x).sbm = s.sbm := rfl
@[simp] theorem setClock_wvu (s : State) (x : Nat) : (s.setClock x).wvu = s.wvu := rfl
@[simp] theorem setClock_rdu (s : State) (x : Nat) : (s.setClock x).rdu = s.rdu := rfl
@[simp] theorem setClock_dtc (s : State) (x : Nat) : (s.setClock x).dtc = s.dtc := rfl
@[simp] theorem setClock_hcm (s : State) (x : Nat) : (s.setClock x).hcm = s.hcm := rfl
@[simp] theorem setClock_sst (s : State) (x : Nat) : (s.setClock x).sst = s.sst := rfl
@[simp] theorem setClock_lp (s : State) (x : Nat) : (s.setClock x).lp = s.lp := rfl
@[simp] theorem setClock_resetLine (s : State) (x : Nat) : (s.setClock x).resetLine = s.resetLine := rfl
@[simp] theorem setClock_clock (s : State) (x : Nat) : (s.setClock x).clock = x := rfl
@[simp] theorem setClock_free (s : State) (x : Nat) : (s.setClock x).free = s.free := rfl

/-! ## setFree -/

@[simp] theorem setFree_pending (s : State) (x : Nat) : (s.setFree x).pending = s.pending := rfl
@[simp] theorem setFree_lsq (s : State) (x : Nat) : (s.setFree x).lsq = s.lsq := rfl
@[simp] theorem setFree_cart (s : State) (x : Nat) : (s.setFree x).cart = s.cart := rfl
@[simp] theorem setFree_ports (s : State) (x : Nat) : (s.setFree x).ports = s.ports := rfl
@[simp] theorem setFree_rows (s : State) (x : Nat) : (s.setFree x).rows = s.rows := rfl
@[simp] theorem setFree_msc (s : State) (x : Nat) : (s.setFree x).msc = s.msc := rfl
@[simp] theorem setFree_rcx (s : State) (x : Nat) : (s.setFree x).rcx = s.rcx := rfl
@[simp] theorem setFree_sbm (s : State) (x : Nat) : (s.setFree x).sbm = s.sbm := rfl
@[simp] theorem setFree_wvu (s : State) (x : Nat) : (s.setFree x).wvu = s.wvu := rfl
@[simp] theorem setFree_rdu (s : State) (x : Nat) : (s.setFree x).rdu = s.rdu := rfl
@[simp] theorem setFree_dtc (s : State) (x : Nat) : (s.setFree x).dtc = s.dtc := rfl
@[simp] theorem setFree_hcm (s : State) (x : Nat) : (s.setFree x).hcm = s.hcm := rfl
@[simp] theorem setFree_sst (s : State) (x : Nat) : (s.setFree x).sst = s.sst := rfl
@[simp] theorem setFree_lp (s : State) (x : Nat) : (s.setFree x).lp = s.lp := rfl
@[simp] theorem setFree_resetLine (s : State) (x : Nat) : (s.setFree x).resetLine = s.resetLine := rfl
@[simp] theorem setFree_clock (s : State) (x : Nat) : (s.setFree x).clock = s.clock := rfl
@[simp] theorem setFree_free (s : State) (x : Nat) : (s.setFree x).free = x := rfl

/-! ## setPort and setRow -/

@[simp] theorem setPort_pending (s : State) (p : Port) (x : PortState) : (s.setPort p x).pending = s.pending := rfl
@[simp] theorem setPort_lsq (s : State) (p : Port) (x : PortState) : (s.setPort p x).lsq = s.lsq := rfl
@[simp] theorem setPort_cart (s : State) (p : Port) (x : PortState) : (s.setPort p x).cart = s.cart := rfl
@[simp] theorem setPort_rows (s : State) (p : Port) (x : PortState) : (s.setPort p x).rows = s.rows := rfl
@[simp] theorem setPort_msc (s : State) (p : Port) (x : PortState) : (s.setPort p x).msc = s.msc := rfl
@[simp] theorem setPort_rcx (s : State) (p : Port) (x : PortState) : (s.setPort p x).rcx = s.rcx := rfl
@[simp] theorem setPort_sbm (s : State) (p : Port) (x : PortState) : (s.setPort p x).sbm = s.sbm := rfl
@[simp] theorem setPort_wvu (s : State) (p : Port) (x : PortState) : (s.setPort p x).wvu = s.wvu := rfl
@[simp] theorem setPort_rdu (s : State) (p : Port) (x : PortState) : (s.setPort p x).rdu = s.rdu := rfl
@[simp] theorem setPort_dtc (s : State) (p : Port) (x : PortState) : (s.setPort p x).dtc = s.dtc := rfl
@[simp] theorem setPort_hcm (s : State) (p : Port) (x : PortState) : (s.setPort p x).hcm = s.hcm := rfl
@[simp] theorem setPort_sst (s : State) (p : Port) (x : PortState) : (s.setPort p x).sst = s.sst := rfl
@[simp] theorem setPort_lp (s : State) (p : Port) (x : PortState) : (s.setPort p x).lp = s.lp := rfl
@[simp] theorem setPort_resetLine (s : State) (p : Port) (x : PortState) : (s.setPort p x).resetLine = s.resetLine := rfl
@[simp] theorem setPort_clock (s : State) (p : Port) (x : PortState) : (s.setPort p x).clock = s.clock := rfl
@[simp] theorem setPort_free (s : State) (p : Port) (x : PortState) : (s.setPort p x).free = s.free := rfl
@[simp] theorem setRow_pending (s : State) (r : Part) (x : Row) : (s.setRow r x).pending = s.pending := rfl
@[simp] theorem setRow_lsq (s : State) (r : Part) (x : Row) : (s.setRow r x).lsq = s.lsq := rfl
@[simp] theorem setRow_cart (s : State) (r : Part) (x : Row) : (s.setRow r x).cart = s.cart := rfl
@[simp] theorem setRow_ports (s : State) (r : Part) (x : Row) : (s.setRow r x).ports = s.ports := rfl
@[simp] theorem setRow_msc (s : State) (r : Part) (x : Row) : (s.setRow r x).msc = s.msc := rfl
@[simp] theorem setRow_rcx (s : State) (r : Part) (x : Row) : (s.setRow r x).rcx = s.rcx := rfl
@[simp] theorem setRow_sbm (s : State) (r : Part) (x : Row) : (s.setRow r x).sbm = s.sbm := rfl
@[simp] theorem setRow_wvu (s : State) (r : Part) (x : Row) : (s.setRow r x).wvu = s.wvu := rfl
@[simp] theorem setRow_rdu (s : State) (r : Part) (x : Row) : (s.setRow r x).rdu = s.rdu := rfl
@[simp] theorem setRow_dtc (s : State) (r : Part) (x : Row) : (s.setRow r x).dtc = s.dtc := rfl
@[simp] theorem setRow_hcm (s : State) (r : Part) (x : Row) : (s.setRow r x).hcm = s.hcm := rfl
@[simp] theorem setRow_sst (s : State) (r : Part) (x : Row) : (s.setRow r x).sst = s.sst := rfl
@[simp] theorem setRow_lp (s : State) (r : Part) (x : Row) : (s.setRow r x).lp = s.lp := rfl
@[simp] theorem setRow_resetLine (s : State) (r : Part) (x : Row) : (s.setRow r x).resetLine = s.resetLine := rfl
@[simp] theorem setRow_clock (s : State) (r : Part) (x : Row) : (s.setRow r x).clock = s.clock := rfl
@[simp] theorem setRow_free (s : State) (r : Part) (x : Row) : (s.setRow r x).free = s.free := rfl

@[simp] theorem port_setPort_same (s : State) (p : Port) (x : PortState) : (s.setPort p x).port p = x :=
  PerPort.get_set_same s.ports p x

theorem port_setPort_other (s : State) {p q : Port} (x : PortState) (h : p ≠ q) : (s.setPort p x).port q = s.port q :=
  PerPort.get_set_other s.ports x h

@[simp] theorem row_setPort (s : State) (p : Port) (x : PortState) (r : Part) : (s.setPort p x).row r = s.row r := rfl

@[simp] theorem row_setRow_same (s : State) (r : Part) (x : Row) : (s.setRow r x).row r = x :=
  PerPart.get_set_same s.rows r x

theorem row_setRow_other (s : State) {r q : Part} (x : Row) (h : r ≠ q) : (s.setRow r x).row q = s.row q :=
  PerPart.get_set_other s.rows x h

@[simp] theorem port_setRow (s : State) (r : Part) (x : Row) (p : Port) : (s.setRow r x).port p = s.port p := rfl

@[simp] theorem port_setPending (s : State) (x : List Instr) (p : Port) : (s.setPending x).port p = s.port p := rfl
@[simp] theorem port_setLsq (s : State) (x : Lsq) (p : Port) : (s.setLsq x).port p = s.port p := rfl
@[simp] theorem port_setCart (s : State) (x : Cart) (p : Port) : (s.setCart x).port p = s.port p := rfl
@[simp] theorem port_setRows (s : State) (x : PerPart Row) (p : Port) : (s.setRows x).port p = s.port p := rfl
@[simp] theorem port_setMsc (s : State) (x : Msc) (p : Port) : (s.setMsc x).port p = s.port p := rfl
@[simp] theorem port_setRcx (s : State) (x : Rcx) (p : Port) : (s.setRcx x).port p = s.port p := rfl
@[simp] theorem port_setSbm (s : State) (x : Sbm) (p : Port) : (s.setSbm x).port p = s.port p := rfl
@[simp] theorem port_setWvu (s : State) (x : Wvu) (p : Port) : (s.setWvu x).port p = s.port p := rfl
@[simp] theorem port_setRdu (s : State) (x : Rdu) (p : Port) : (s.setRdu x).port p = s.port p := rfl
@[simp] theorem port_setDtc (s : State) (x : Dtc) (p : Port) : (s.setDtc x).port p = s.port p := rfl
@[simp] theorem port_setHcm (s : State) (x : Hcm) (p : Port) : (s.setHcm x).port p = s.port p := rfl
@[simp] theorem port_setSst (s : State) (x : Sst) (p : Port) : (s.setSst x).port p = s.port p := rfl
@[simp] theorem port_setLp (s : State) (x : Lp) (p : Port) : (s.setLp x).port p = s.port p := rfl
@[simp] theorem port_setResetLine (s : State) (x : Bool) (p : Port) : (s.setResetLine x).port p = s.port p := rfl
@[simp] theorem port_setClock (s : State) (x : Nat) (p : Port) : (s.setClock x).port p = s.port p := rfl
@[simp] theorem port_setFree (s : State) (x : Nat) (p : Port) : (s.setFree x).port p = s.port p := rfl
@[simp] theorem row_setPending (s : State) (x : List Instr) (r : Part) : (s.setPending x).row r = s.row r := rfl
@[simp] theorem row_setLsq (s : State) (x : Lsq) (r : Part) : (s.setLsq x).row r = s.row r := rfl
@[simp] theorem row_setCart (s : State) (x : Cart) (r : Part) : (s.setCart x).row r = s.row r := rfl
@[simp] theorem row_setPorts (s : State) (x : PerPort PortState) (r : Part) : (s.setPorts x).row r = s.row r := rfl
@[simp] theorem row_setMsc (s : State) (x : Msc) (r : Part) : (s.setMsc x).row r = s.row r := rfl
@[simp] theorem row_setRcx (s : State) (x : Rcx) (r : Part) : (s.setRcx x).row r = s.row r := rfl
@[simp] theorem row_setSbm (s : State) (x : Sbm) (r : Part) : (s.setSbm x).row r = s.row r := rfl
@[simp] theorem row_setWvu (s : State) (x : Wvu) (r : Part) : (s.setWvu x).row r = s.row r := rfl
@[simp] theorem row_setRdu (s : State) (x : Rdu) (r : Part) : (s.setRdu x).row r = s.row r := rfl
@[simp] theorem row_setDtc (s : State) (x : Dtc) (r : Part) : (s.setDtc x).row r = s.row r := rfl
@[simp] theorem row_setHcm (s : State) (x : Hcm) (r : Part) : (s.setHcm x).row r = s.row r := rfl
@[simp] theorem row_setSst (s : State) (x : Sst) (r : Part) : (s.setSst x).row r = s.row r := rfl
@[simp] theorem row_setLp (s : State) (x : Lp) (r : Part) : (s.setLp x).row r = s.row r := rfl
@[simp] theorem row_setResetLine (s : State) (x : Bool) (r : Part) : (s.setResetLine x).row r = s.row r := rfl
@[simp] theorem row_setClock (s : State) (x : Nat) (r : Part) : (s.setClock x).row r = s.row r := rfl
@[simp] theorem row_setFree (s : State) (x : Nat) (r : Part) : (s.setFree x).row r = s.row r := rfl

end State

end Sys2Proof.Machine
end

