-- ==== Sys2Proof/Laws/Settle.lean ====
section
/-! SUPPORT. What every step brings about as soon as it is taken (`State.settle`): nothing at a settled moment. -/

namespace Sys2Proof.Machine
namespace State

/-- At a settled moment nothing follows by itself. -/
theorem settle_settled {s : State} (h : s.Settled) : s.settle = s := by
  have hcut : ∀ p, s.finishCutOf p = s := fun p => by
    unfold finishCutOf
    cases hc : (s.port p).cut with
    | false => simp
    | true => simp [h.cut p hc]
  have hnote : s.noteAbandonment = s := by
    unfold noteAbandonment
    split
    · rename_i p hj; simp [(h.scan p hj).1, (h.scan p hj).2]
    · rfl
  have hdrain : s.yieldWaiting = s := by
    have hn : s.drainYields = none := by
      unfold drainYields
      split
      · rename_i r p w st ht
        have hj : s.job = some (.drain r p) := by simp [job, ht]
        have hd := h.drain r p hj
        split
        · rename_i ha
          have ho := hd (by simp [waitingTurn, hj, ha])
          simp [ho]
        · rename_i ha
          have ho := hd (by simp [waitingTurn, hj, ha])
          simp [yieldDue, ht, atYieldPoint, ho]
        · rfl
      · rfl
    simp [yieldWaiting, hn]
  have hwake : s.wakeForWork = s := by
    unfold wakeForWork
    split
    · rename_i hw
      simp only [Bool.and_eq_true, decide_eq_true_eq, Bool.or_eq_true] at hw
      have hn := h.standby hw.1
      simp [hn.1, hn.2] at hw
    · rfl
  unfold settle
  rw [hcut, hcut, hnote, hdrain, hwake]

/-- A calm moment is settled. -/
theorem Calm.settled {s : State} (h : s.Calm) : s.Settled := by
  obtain ⟨ha, hb, hs, hl, hw⟩ := h
  have hj : ∀ p, s.job ≠ some (.verify p) := fun p hj => by simp [scanTurn, hj] at hs
  refine ⟨fun p hc => ?_, fun p h => absurd h (hj p), fun h => absurd h hl, fun r p _ h => absurd h (by simp [hw])⟩
  cases p
  · simp [port, PerPort.get, ha] at hc
  · simp [port, PerPort.get, hb] at hc

/-- At a calm moment nothing follows by itself. -/
theorem settle_calm {s : State} (h : s.Calm) : s.settle = s := settle_settled h.settled

/-- A moment stays settled where nothing it is judged by changes. -/
theorem Settled.congr {s t : State} (h : s.Settled) (hp : ∀ p, (t.port p).cut = (s.port p).cut) (hj : t.job = s.job)
    (ho : ∀ p, t.contenders p = s.contenders p) (hn : ∀ p, t.scanNoted p = s.scanNoted p) (hl : t.lsq.state = s.lsq.state) (hw : ∀ p, t.portWork p = s.portWork p)
    (ha : t.msc.activity = s.msc.activity) (he : ∀ p, t.otherEligible p = s.otherEligible p) : t.Settled := by
  refine ⟨fun p hc => ?_, fun p hq => ?_, fun hq => ?_, fun r p hq hx => ?_⟩
  · rw [hj]; exact h.cut p ((hp p) ▸ hc)
  · simpa only [scanOutdone, scanRelieved, ho, hn] using h.scan p (hj ▸ hq)
  · rw [hw, hw]; exact h.standby (hl ▸ hq)
  · rw [he]
    refine h.drain r p (hj ▸ hq) ?_
    simpa only [waitingTurn, hj, ha] using hx

/-- A moment stays calm where the cuts, the turn and the load state stay. -/
theorem Calm.congr {s t : State} (h : s.Calm) (hp : ∀ p, (t.port p).cut = (s.port p).cut) (ht : t.msc.turn = s.msc.turn)
    (hl : t.lsq.state = s.lsq.state) (hm : t.msc.activity = s.msc.activity) : t.Calm := by
  obtain ⟨ha, hb, hs, hs', hw⟩ := h
  refine ⟨(hp .a).trans ha, (hp .b).trans hb, ?_, hl ▸ hs', ?_⟩
  · simpa [scanTurn, job, ht] using hs
  · simpa only [waitingTurn, job, ht, hm] using hw

/-- A step that changes nothing which work, cuts and turns are judged by leaves a settled moment settled. -/
theorem settle_like {s x : State} (h : s.Settled) (hp : x.ports = s.ports) (hr : x.rows = s.rows) (hm : x.msc.turn = s.msc.turn)
    (hact : x.msc.activity = s.msc.activity)
    (hl : x.msc.libWork = s.msc.libWork) (hq : x.lsq.state = s.lsq.state) (hsb : x.sbm = s.sbm) (hw : x.wvu = s.wvu)
    (hrd : x.rdu = s.rdu) (hd : x.dtc.waiters = s.dtc.waiters) : x.settle = x := by
  apply settle_settled
  have e1 : ∀ r, x.drainEligible r = s.drainEligible r := fun r => by
    simp only [drainEligible, row, readyCount, rewriteDue, hr, hsb, hw, hd]; rfl
  have e2 : ∀ p, x.commandEligible p = s.commandEligible p := fun p => by
    simp only [commandEligible, port, hp, hrd]
  have e3 : ∀ p, x.fillEligible p = s.fillEligible p := fun p => by
    simp only [fillEligible, hrd, hq]
  have e4 : ∀ p, x.sessionOf p = s.sessionOf p := fun p => by
    simp only [sessionOf, holds, row, hr]
  apply h.congr (fun p => by simp only [port, hp])
  · simp only [job, hm]
  · intro p
    simp only [contenders, e2, hl, e1]
    simp only [drainDemand, row, hr, port, hp]
  · intro p
    simp only [scanNoted, hrd]
  · exact hq
  · intro p
    simp only [portWork, e4, e1, e2, e3]
  · exact hact
  · intro p
    simp only [otherEligible, hl, portWork, e4, e1, e2, e3]

end State
end Sys2Proof.Machine
end

