-- ==== Sys2Proof/Laws/Arrivals.lean ====
section
/-! SUPPORT. What an arriving frame comes to, said once: a library frame refused, turned away or taken, and a host command taken into service at its arrival. -/

namespace Sys2Proof.Machine
namespace State

theorem libraryEnded_def (s : State) (code : Nat) (result : LibResult) (detail : LibDetail) :
    s.frameTaken.answerTaken result code detail = s.libraryEnded code result detail := by
  simp [answerTaken, sendLib, frameTaken, libraryEnded, setLp]

theorem libraryAnswered_def (s : State) (code : Nat) (result : LibResult) (detail : LibDetail) :
    s.frameTaken.sendLib result code detail = s.libraryAnswered code result detail := rfl

/-- A parameter out of range is refused FORMAT_FAULT (R189). -/
theorem arriveLibrary_bad {s : State} (h : s.resetLine = false) (code : Nat) (rule : State → State) :
    s.arriveLibrary code false rule = s.libraryAnswered code .formatFault .none := by
  simp [arriveLibrary, h, libraryAnswered_def]

/-- A command that arrives while one is outstanding is answered BUSY (R189). -/
theorem arriveLibrary_busy {s : State} (h : s.resetLine = false) (ho : s.lp.outstanding.isSome = true) (code : Nat) (rule : State → State) :
    s.arriveLibrary code true rule = s.libraryAnswered code .busy .none := by
  simp [arriveLibrary, h, ho, libraryAnswered_def]

/-- With nothing unsent the arrival leaves the queue as it is. -/
theorem seeSent_none {s : State} (h : s.lp.unsent = none) : s.seeSent = s := by simp [seeSent, h]

/-- A response unsent with a new divisor to report is not sent before that takes effect (R185, R189). -/
theorem seeSent_divisor {s : State} (h : s.lp.newDivisors ≠ []) : s.seeSent = s := by
  unfold seeSent; split <;> simp_all

/-- A command that arrives while the response that reports a new divisor is unsent is answered BUSY (R185, R189). -/
theorem arriveLibrary_divisor {s : State} (h : s.resetLine = false) (hu : s.lp.unsent.isSome = true) (hd : s.lp.newDivisors ≠ [])
    (code : Nat) (rule : State → State) : s.arriveLibrary code true rule = s.libraryAnswered code .busy .none := by
  have e : s.frameTaken.seeSent = s.frameTaken := seeSent_divisor hd
  have hu' : s.frameTaken.lp.unsent.isSome = true := hu
  simp only [arriveLibrary, h, e, hu']
  simp [libraryAnswered_def]

/-- A command that arrives while a response may still be unsent is answered BUSY, or taken as if that response and those before it had been sent (R189). -/
theorem arriveLibrary_unsent {s : State} (h : s.resetLine = false) (ho : s.lp.outstanding = none) {n : Nat} (hu : s.lp.unsent = some n)
    (hd : s.lp.newDivisors = []) (code : Nat) (rule : State → State) :
    s.arriveLibrary code true rule = ({ s with free := s.free + 1 } : State).libraryAnswered code .busy .none ∨
    s.arriveLibrary code true rule =
      ({ s with free := s.free + 1, lp := { s.lp with tx := s.lp.tx.drop n, unsent := none } } : State).arriveLibrary code true rule := by
  cases hc : Config.responseSent s.free
  · left; simp [arriveLibrary, seeSent, frameTaken, h, ho, hu, hd, hc, sendLib, libraryAnswered, setLp, setFree]
  · right; simp [arriveLibrary, seeSent, frameTaken, h, ho, hu, hd, hc, setLp, setFree]

/-- A command that may be taken is taken by its own rule (R189). -/
theorem arriveLibrary_takes {s : State} (h : s.TakesLibrary) (code : Nat) (rule : State → State) :
    s.arriveLibrary code true rule = rule s.frameTaken := by
  have e : s.frameTaken.seeSent = s.frameTaken := seeSent_none h.sent
  have hu : s.frameTaken.lp.unsent = none := h.sent
  simp [arriveLibrary, h.line, h.free, e, hu]

/-- A moment stays settled when a library response is produced. -/
theorem Settled.libraryAnswered {s : State} (h : s.Settled) (code : Nat) (result : LibResult) (detail : LibDetail) :
    (s.libraryAnswered code result detail).Settled :=
  h.congr (fun p => by cases p <;> rfl) rfl (fun _ => rfl) (fun _ => rfl) rfl (fun _ => rfl) rfl (fun _ => rfl)

theorem settle_libraryEnded {s : State} (h : s.Settled) (code : Nat) (result : LibResult) (detail : LibDetail) :
    (s.libraryEnded code result detail).settle = s.libraryEnded code result detail :=
  settle_settled (h.congr (fun p => by cases p <;> rfl) rfl (fun _ => rfl) (fun _ => rfl) rfl (fun _ => rfl) rfl (fun _ => rfl))

theorem settle_libraryAnswered {s : State} (h : s.Settled) (code : Nat) (result : LibResult) (detail : LibDetail) :
    (s.libraryAnswered code result detail).settle = s.libraryAnswered code result detail :=
  settle_settled (h.libraryAnswered code result detail)

@[simp] theorem port_setPort (s : State) (p : Port) (x : PortState) : (s.setPort p x).port p = x := by cases p <;> rfl

@[simp] theorem setPort_setPort (s : State) (p : Port) (x y : PortState) : (s.setPort p x).setPort p y = s.setPort p y := by cases p <;> rfl

/-- With nothing in service or waiting no tag is in use. -/
theorem tagInUse_idle {s : State} {p : Port} (hi : (s.port p).inService = none) (hw : (s.port p).waiting = []) (tag : Nat) :
    s.tagInUse p tag = false := by
  simp [tagInUse, hi, hw]

/-- A command that the port can serve at once enters the in-service place at its arrival (R39, R41). -/
theorem arriveCommand_serves {s : State} {p : Port} (h : s.Serves p) (code tag : Nat) (c : HostCmd) :
    s.arriveCommand p code tag (some c) = s.takeCommand p { tag := tag, cmd := c } := by
  simp [arriveCommand, h.line, tagInUse_idle h.idle h.waiting, h.cut, h.waiting, enqueue, h.idle, h.layOut]

/-- A row depends on the port's part of the state not at all. -/
@[simp] theorem sessionOf_setPort (s : State) (p q : Port) (x : PortState) : (s.setPort p x).sessionOf q = s.sessionOf q := rfl

/-- A port's context resolves by its sector alone (R72). -/
theorem contextPart_setPort {s : State} {p : Port} {x : PortState} (h : x.sector = (s.port p).sector) (q : Port) :
    (s.setPort p x).contextPart q = s.contextPart q := by
  have : ∀ l, (s.setPort p x).grantEntry q l = s.grantEntry q l := fun l => by
    cases p <;> cases q <;> simp_all [grantEntry, setPort, port, PerPort.set, PerPort.get]
  simp only [contextPart, context, this]; rfl

theorem contextEw_setPort {s : State} {p : Port} {x : PortState} (h : x.sector = (s.port p).sector) (q : Port) :
    (s.setPort p x).contextEw q = s.contextEw q := by
  simp only [contextEw, contextPart_setPort h]; rfl

/-- Without a session the command meets its own check as soon as it is taken (R41). -/
theorem takeCommand_serves {s : State} {p : Port} (h : s.Serves p) (hn : s.sessionOf p = none) (q : Queued) :
    s.takeCommand p q = (s.serving p (taken (s.port p).options q)).serveCommand p q.cmd := by
  have hold : (s.setPort p { s.port p with inService := some (taken (s.port p).options q) }).holdForWrite p q.cmd
      = s.setPort p { s.port p with inService := some (taken (s.port p).options q) } := by
    simp [holdForWrite, hn]
  simp only [takeCommand]
  rw [hold]
  have hl : loadCheck (s.setPort p { s.port p with inService := some (taken (s.port p).options q) }).lsq.state = none := h.load
  simp only [hl]
  simp [h.attention, serving]

/-- A command that ends without a session leaves its response and its outcome record (R42). -/
theorem endCommand_serving {s : State} {p : Port} (hn : s.sessionOf p = none) (c : InService) (result : HostResult) (detail : Detail) :
    (s.serving p c).endCommand p result detail
      = s.ended p (cmdCode c.cmd) c.tag result ((s.serving p c).responseEw p c) detail := by
  have key : ∀ x : PortState, (s.setPort p x).refreshSession p = s.setPort p x ∧ (s.setPort p x).afterWrite p = s.setPort p x := fun x => by
    simp [refreshSession, afterWrite, hn]
  have hs : (s.serving p c).port p = { s.port p with inService := some c } := port_setPort ..
  simp only [endCommand, hs]
  generalize he : (s.serving p c).responseEw p c = ew
  simp only [serving, sendHost, writeOutcome, port_setPort, setPort_setPort] at he ⊢
  have hw : ∀ x : PortState, x.sector = (s.port p).sector → (s.setPort p x).contextEw p = s.contextEw p := fun x h => contextEw_setPort h p
  rw [hw]
  · split
    · simp only [key]; rfl
    · split
      · simp only [key]; rfl
      · rfl
  · rfl

end State
end Sys2Proof.Machine
end

