-- ==== Sys2Proof/Laws/Slots.lean ====
section
/-! SUPPORT. What a change of the segment slots keeps: the number of slots, and the bounds on the write side and on each port's read side (R99, R100). -/

namespace Sys2Proof.Machine

/-- Port `p`'s read side: what `readSideCount` counts. -/
def Slot.readsFor (x : Slot) (p : Port) : Bool := x.readSide && x.owner == .port p

/-- A slot changed so that it enters no side it was not on. -/
structure Slot.Keeps (x y : Slot) : Prop where
  write : y.writeSide = true → x.writeSide = true
  read : ∀ p, y.readsFor p = true → x.readsFor p = true

theorem Slot.Keeps.refl (x : Slot) : Slot.Keeps x x := ⟨id, fun _ => id⟩

theorem Slot.Keeps.trans {x y z : Slot} (h : Slot.Keeps x y) (h' : Slot.Keeps y z) : Slot.Keeps x z :=
  ⟨fun e => h.write (h'.write e), fun p e => h.read p (h'.read p e)⟩

/-- A slot freed leaves its side. -/
theorem Slot.Keeps.free (x : Slot) : Slot.Keeps x Slot.free := ⟨(fun h => by cases h), (fun _ h => by cases h)⟩

/-- A slot that keeps its state and owner keeps its side. -/
theorem Slot.Keeps.same {x y : Slot} (hs : y.state = x.state) (ho : y.owner = x.owner) : Slot.Keeps x y := by
  constructor
  · simp only [Slot.writeSide, hs]; exact id
  · intro p; simp only [Slot.readsFor, Slot.readSide, hs, ho]; exact id

/-- A write-side slot may become any write-side slot or a free one. -/
theorem Slot.Keeps.ofWrite {x y : Slot} (hx : x.writeSide = true) (hy : y.readSide = false) : Slot.Keeps x y :=
  ⟨fun _ => hx, fun p h => by simp [Slot.readsFor, hy] at h⟩

theorem Slot.Keeps.setPin (x : Slot) (p : Port) (v : Bool) : Slot.Keeps x (x.setPin p v) := by cases p <;> exact .same rfl rfl

theorem Slot.Keeps.afterUnpin (ra : PerPort Bool) (x : Slot) : Slot.Keeps x (Slot.afterUnpin ra x) := by
  unfold Slot.afterUnpin
  (repeat' split) <;> first | exact .free _ | exact .same rfl rfl

theorem Slot.Keeps.readAheadOff (x : Slot) (p : Port) : Slot.Keeps x (x.readAheadOff p) := by
  unfold Slot.readAheadOff
  (repeat' split) <;> first | exact .free _ | exact .same rfl rfl

/-- What becomes of a CACHED slot whose pin has been dropped (R114, R115). -/
theorem Slot.afterUnpin_cached (ra : PerPort Bool) (x : Slot) (h : x.state = .cached) : x.afterUnpin ra =
    if x.pinned then { x with releasing := x.toRelease ra } else if x.invalidated || x.toRelease ra then Slot.free else x := by
  simp [Slot.afterUnpin, h]

/-- Only a CACHED slot is released (R114). -/
theorem Slot.afterUnpin_uncached (ra : PerPort Bool) (x : Slot) (h : x.state ≠ .cached) : x.afterUnpin ra = x := by
  simp [Slot.afterUnpin, h]

/-- A slot marked for its release is to be released whatever its owner's option is by then (R114). -/
theorem Slot.toRelease_marked (ra : PerPort Bool) (x : Slot) (h : x.releasing = true) : x.toRelease ra = true := by
  simp [Slot.toRelease, h]

/-- What a Set Port Options that carries read-ahead off makes of a slot: it stays, is freed, or is marked for its release (R114). -/
theorem Slot.readAheadOff_cases (x : Slot) (p : Port) :
    x.readAheadOff p = x ∨ (x.readAheadOff p = Slot.free ∧ x.pinned = false) ∨ (x.readAheadOff p = { x with releasing := true } ∧ x.pinned = true) := by
  unfold Slot.readAheadOff
  (repeat' split) <;> simp_all

theorem Slot.Keeps.invalidate (x : Slot) : Slot.Keeps x (Slot.invalidate x) := by
  unfold Slot.invalidate
  split <;> first | exact .free _ | exact .same rfl rfl

theorem Slot.Keeps.resetBy (x : Slot) (p : Port) : Slot.Keeps x (x.resetBy p) := by
  unfold Slot.resetBy
  (repeat' split) <;> first | exact .refl _ | exact .free _ | exact .same rfl rfl

/-- The slots changed with their number and bounds kept. -/
structure SlotsKept (l l' : List Slot) : Prop where
  length : l'.length = l.length ∨ l'.length = 32
  write : writeSideCount l' ≤ writeSideCount l ∨ writeSideCount l' ≤ 24
  read : ∀ p, readSideCount l' p ≤ readSideCount l p ∨ readSideCount l' p ≤ 8

theorem SlotsKept.refl (l : List Slot) : SlotsKept l l := ⟨.inl rfl, .inl (Nat.le_refl _), fun _ => .inl (Nat.le_refl _)⟩

theorem SlotsKept.reset (l : List Slot) : SlotsKept l Sbm.reset.slots :=
  ⟨.inr rfl, .inr (Nat.zero_le _), fun _ => .inr (Nat.zero_le _)⟩

theorem readSideCount_eq (l : List Slot) (p : Port) : readSideCount l p = l.countP (·.readsFor p) := rfl

/-- A change of every slot by itself, each entering no side it was not on. -/
theorem countP_mapIdx_le (q : Slot → Bool) (f : Nat → Slot → Slot) (h : ∀ i x, q (f i x) = true → q x = true) (l : List Slot) :
    (l.mapIdx f).countP q ≤ l.countP q := by
  induction l generalizing f with
  | nil => exact Nat.le_refl _
  | cons x l ih =>
    rw [List.mapIdx_cons, List.countP_cons, List.countP_cons]
    have := ih (fun i => f (i + 1)) (fun i => h (i + 1))
    have hx := h 0 x
    by_cases h1 : q (f 0 x) = true
    · simp only [h1, hx h1, if_pos]; omega
    · simp only [if_neg h1]; omega

theorem SlotsKept.mapIdx (l : List Slot) (f : Nat → Slot → Slot) (h : ∀ i x, Slot.Keeps x (f i x)) : SlotsKept l (l.mapIdx f) :=
  ⟨.inl (List.length_mapIdx ..), .inl (countP_mapIdx_le _ f (fun i x => (h i x).write) l),
   fun p => .inl (countP_mapIdx_le _ f (fun i x => (h i x).read p) l)⟩

theorem SlotsKept.map (l : List Slot) (f : Slot → Slot) (h : ∀ x, Slot.Keeps x (f x)) : SlotsKept l (l.map f) :=
  ⟨.inl (List.length_map ..),
   .inl (by rw [writeSideCount, List.countP_map]; exact List.countP_mono_left fun x _ e => (h x).write e),
   fun p => .inl (by rw [readSideCount_eq, readSideCount_eq, List.countP_map]; exact List.countP_mono_left fun x _ e => (h x).read p e)⟩

/-- One slot set: the count of a kind with the old slot out and the new one in. -/
theorem countP_set_eq (q : Slot → Bool) (l : List Slot) (i : Nat) (y : Slot) (hi : i < l.length) :
    (l.set i y).countP q + (if q l[i] then 1 else 0) = l.countP q + (if q y then 1 else 0) := by
  rw [List.countP_set hi]
  have : q l[i] = true → 0 < l.countP q := fun h => List.countP_pos_iff.2 ⟨_, List.getElem_mem hi, h⟩
  by_cases h1 : q l[i] = true
  · have := this h1; simp only [h1, if_true]; omega
  · simp [h1]

theorem getD_of_lt {l : List Slot} {i : Nat} (hi : i < l.length) : l.getD i Slot.free = l[i] := by
  simp [List.getD, hi]

theorem countP_set_le (q : Slot → Bool) (l : List Slot) (i : Nat) (y : Slot) (h : q y = true → q (l.getD i Slot.free) = true) :
    (l.set i y).countP q ≤ l.countP q := by
  by_cases hi : i < l.length
  · have := countP_set_eq q l i y hi
    rw [getD_of_lt hi] at h
    by_cases hy : q y = true
    · rw [if_pos (h hy), if_pos hy] at this; omega
    · rw [if_neg hy] at this; omega
  · exact Nat.le_of_eq (congrArg _ (List.set_eq_of_length_le (by omega)))

theorem SlotsKept.set (l : List Slot) (i : Nat) (y : Slot) (h : Slot.Keeps (l.getD i Slot.free) y) : SlotsKept l (l.set i y) :=
  ⟨.inl (List.length_set ..), .inl (countP_set_le _ l i y h.write), fun p => .inl (countP_set_le _ l i y (h.read p))⟩

theorem countP_set_succ (q : Slot → Bool) (l : List Slot) (i : Nat) (y : Slot) : (l.set i y).countP q ≤ l.countP q + 1 := by
  by_cases hi : i < l.length
  · have := countP_set_eq q l i y hi
    (split at this <;> split at this) <;> omega
  · rw [List.set_eq_of_length_le (by omega)]; omega

/-! ## The slots chosen -/

theorem lowestFree_spec {l : List Slot} {i : Nat} (h : lowestFree l = some i) : i < l.length ∧ (l.getD i Slot.free).state = .free := by
  obtain ⟨hi, h1, -⟩ := List.findIdx?_eq_some_iff_getElem.1 h
  exact ⟨hi, by rw [getD_of_lt hi]; simpa using h1⟩

/-- The slot to reclaim is CACHED, without a pin, and one the condition admits (R102, R113). -/
theorem oldestCached_spec {l : List Slot} {ok : Slot → Bool} {i : Nat} (h : oldestCached l ok = some i) :
    i < l.length ∧ (l.getD i Slot.free).state = .cached ∧ (l.getD i Slot.free).pinned = false ∧ ok (l.getD i Slot.free) = true := by
  have key : ∀ (m : List (Slot × Nat)) (b : Option (Nat × Nat)),
      (∀ y ∈ m, l[y.2]? = some y.1) →
      (∀ k, b = some k → ∃ x, l[k.1]? = some x ∧ x.state = .cached ∧ x.pinned = false ∧ ok x = true) →
      ∀ k, m.foldl (fun best y => if y.1.state == .cached && !y.1.pinned && ok y.1 then olderUse best y.2 y.1 else best) b = some k →
      ∃ x, l[k.1]? = some x ∧ x.state = .cached ∧ x.pinned = false ∧ ok x = true := by
    intro m
    induction m with
    | nil => intro b _ hb k hk; exact hb k hk
    | cons y m ih =>
      intro b hm hb k hk
      refine ih _ (fun z hz => hm z (List.mem_cons_of_mem _ hz)) ?_ k hk
      intro k' hk'
      dsimp only at hk'
      split at hk'
      · rename_i hc
        simp only [Bool.and_eq_true, beq_iff_eq, Bool.not_eq_true'] at hc
        have hy : ∃ x, l[y.2]? = some x ∧ x.state = .cached ∧ x.pinned = false ∧ ok x = true :=
          ⟨y.1, hm y (List.mem_cons_self ..), hc.1.1, hc.1.2, hc.2⟩
        unfold olderUse at hk'
        dsimp only at hk'
        (repeat' split at hk') <;> cases hk' <;> first | exact hy | exact hb _ rfl
      · exact hb k' hk'
  unfold oldestCached at h
  obtain ⟨k, hk, rfl⟩ := Option.map_eq_some_iff.1 h
  obtain ⟨x, hx, h1, h2, h3⟩ := key l.zipIdx none (fun y hy => by
    obtain ⟨a, b⟩ := y
    have := List.mem_zipIdx_iff_getElem?.1 hy
    simpa using this) (fun _ h => nomatch h) k hk
  obtain ⟨hi, rfl⟩ := List.getElem?_eq_some_iff.1 hx
  rw [getD_of_lt hi]
  exact ⟨hi, h1, h2, h3⟩

/-- What the write side may take: the write side is below its bound (R100, R102). -/
theorem slotForWriting_count {l : List Slot} {i : Nat} (h : slotForWriting l = some i) : writeSideCount l < 24 := by
  unfold slotForWriting at h
  split at h
  · assumption
  · cases h

/-- A slot taken for the write side keeps the bounds (R100, R102). -/
theorem SlotsKept.takeWrite {l : List Slot} {i : Nat} (h : slotForWriting l = some i) (y : Slot) (hy : y.readSide = false) :
    SlotsKept l (l.set i y) :=
  ⟨.inl (List.length_set ..), .inr (Nat.le_trans (countP_set_succ ..) (slotForWriting_count h)),
   fun _ => .inl (countP_set_le _ l i y (fun e => by simp [hy] at e))⟩

/-- A slot taken for a port's read side keeps the bounds: where the port has its 8 the slot was its own (R100, R113). -/
theorem SlotsKept.takeRead {l : List Slot} {i : Nat} {p : Port} (h : slotForRead l p = some i) (y : Slot) (hw : y.writeSide = false)
    (ho : y.owner = .port p) : SlotsKept l (l.set i y) := by
  refine ⟨.inl (List.length_set ..), .inl (countP_set_le _ l i y (fun e => by simp [hw] at e)), fun q => ?_⟩
  by_cases hq : q = p
  · subst hq
    unfold slotForRead at h
    split at h
    · rename_i hc; right; exact Nat.le_trans (countP_set_succ ..) (Nat.succ_le_of_lt hc)
    · left
      obtain ⟨_, hc, _, hok⟩ := oldestCached_spec h
      exact countP_set_le _ l i y (fun _ => by
        rw [Bool.and_eq_true]; exact ⟨by rw [Slot.readSide, hc], hok⟩)
  · left; exact countP_set_le _ l i y (fun e => by simp [ho] at e; exact absurd e.2.symm hq)

theorem slotForRead_of_fill {l : List Slot} {p : Port} {i : Nat} (h : slotForFill l p = some i) : slotForRead l p = some i := by
  unfold slotForFill at h
  unfold slotForRead
  split at h
  · rename_i hc; rw [if_pos hc, h]
  · cases h

/-- A Truncate's copy cut in one slot and the slot taken for it freed keep the bounds (R111). -/
theorem SlotsKept.cut (l : List Slot) (k i : Nat) (y : Slot) (hk : (l.getD k Slot.free).writeSide = true) (hy : y.readSide = false) :
    SlotsKept l ((l.set k Slot.free).set i y) := by
  have hlt : k < l.length := Nat.lt_of_not_le fun hc => by
    have : l.getD k Slot.free = Slot.free := by simp [List.getD, List.getElem?_eq_none hc]
    rw [this] at hk; cases hk
  refine ⟨.inl (by simp), .inl ?_, fun p => .inl ?_⟩
  · have h1 := countP_set_eq (·.writeSide) l k Slot.free hlt
    rw [getD_of_lt hlt] at hk
    have h2 := countP_set_succ (·.writeSide) (l.set k Slot.free) i y
    have h3 : Slot.free.writeSide = false := rfl
    simp only [hk, h3, if_true] at h1
    unfold writeSideCount
    simp at h1; omega
  · refine Nat.le_trans (countP_set_le _ _ i y (fun e => by simp [hy] at e)) ?_
    exact countP_set_le _ l k Slot.free (fun e => nomatch e)

end Sys2Proof.Machine
end

