-- ==== Sys2Proof/Laws/Leads.lean ====
section
/-! SUPPORT. What the shared operations can do, said once: `Leads s t` holds when `t` comes from `s` by changes that every rule may make. The commands that may do more (grants, settings, tag writes, power-on, a completed cleaning) say so for themselves. -/

namespace Sys2Proof.Machine

/-- The order of the clean call levels (R175, R176). -/
def cleanRank : CleanLevel → Nat
  | .none => 0
  | .advised => 1
  | .required => 2

/-- The changes that the shared operations are made of. They leave alone the queue, the reset line, the settings, the grants, the cartridge in the drive and the divisor, never take the clean call down, and keep the bounds of `State.Sound`. -/
inductive State.Leads (s₀ : State) : State → Prop where
  | start : Leads s₀ s₀
  | setLsq (s : State) (x : Lsq) : Leads s₀ s → x.retries = s.lsq.retries ∨ x.retries ≤ 2 → Leads s₀ (s.setLsq x)
  | setPort (s : State) (p : Port) (x : PortState) : Leads s₀ s → x.sector = (s.port p).sector →
      x.waiting.length ≤ (s.port p).waiting.length ∨ x.waiting.length ≤ 4 → Leads s₀ (s.setPort p x)
  /-- A row keeps its holder, loses it, or comes to a port that holds no other (R51). -/
  | setRow (s : State) (r : Part) (x : Row) : Leads s₀ s →
      x.holder = (s.row r).holder ∨ x.holder = none ∨ (∃ p, x.holder = some p ∧ s.sessionOf p = none) → Leads s₀ (s.setRow r x)
  | clearRows (s : State) : Leads s₀ s → Leads s₀ (s.setRows { p0 := Row.empty, p1 := Row.empty, p2 := Row.empty, p3 := Row.empty })
  | setMsc (s : State) (x : Msc) : Leads s₀ s → x.burst = s.msc.burst ∨ x.burst ≤ 8 → Leads s₀ (s.setMsc x)
  | setRcx (s : State) (x : Rcx) : Leads s₀ s → Leads s₀ (s.setRcx x)
  | setSbm (s : State) (x : Sbm) : Leads s₀ s → SlotsKept s.sbm.slots x.slots → Leads s₀ (s.setSbm x)
  | setWvu (s : State) (x : Wvu) : Leads s₀ s → x.rate.backhitches = s.wvu.rate.backhitches ∨ x.rate.backhitches ≤ 1 → Leads s₀ (s.setWvu x)
  | setRdu (s : State) (x : Rdu) : Leads s₀ s → Leads s₀ (s.setRdu x)
  | setDtc (s : State) (x : Dtc) : Leads s₀ s → Leads s₀ (s.setDtc x)
  | setHcm (s : State) (x : Hcm) : Leads s₀ s → x.meter = s.hcm.meter → x.level = s.hcm.level → x.reason = s.hcm.reason →
      x.history.length ≤ s.hcm.history.length ∨ x.history.length ≤ 3 → Leads s₀ (s.setHcm x)
  | setLp (s : State) (x : Lp) : Leads s₀ s → x.divisor = s.lp.divisor → x.newDivisors = s.lp.newDivisors ∨ x.newDivisors = [] →
      (∀ k, s.lp.summary.holds k = true → x.summary.holds k = true) → Leads s₀ (s.setLp x)
  | setClock (s : State) (n : Nat) : Leads s₀ s → Leads s₀ (s.setClock n)
  | setFree (s : State) (n : Nat) : Leads s₀ s → Leads s₀ (s.setFree n)
  /-- The clean call rises (R175), stored with the meter (R172). -/
  | raise (s : State) (level : CleanLevel) (reason : CleanReason) : Leads s₀ s → cleanRank s.hcm.level ≤ cleanRank level →
      Leads s₀ (s.raiseClean level reason)
  /-- A movement counted (R171), with the meter's copy written where it is due (R172). -/
  | travel (s : State) (n : Nat) : Leads s₀ s →
      Leads s₀ (s.setHcm { s.hcm with meter := meterAfter s.hcm.meter n }).copyMeterIfDue
  | copyMeter (s : State) : Leads s₀ s → Leads s₀ s.copyMeter
  | addCause (s : State) (x : Causes) : Leads s₀ s → Leads s₀ (s.addCause x)

namespace State

/-- The part of the state that the shared operations leave alone. -/
def fixed (s : State) : List Instr × Bool × Settings × PerPort (List (Option Grant)) × List (Option Grant) × List (Option Grant) × Cart × Nat :=
  (s.pending, s.resetLine, s.sst.settings, s.sst.grants, s.ports.a.sector, s.ports.b.sector, s.cart, s.lp.divisor)

theorem fixed_setPort (s : State) (p : Port) (x : PortState) (h : x.sector = (s.port p).sector) : (s.setPort p x).fixed = s.fixed := by
  cases p <;> simp only [port, PerPort.get] at h <;> simp [fixed, setPort, PerPort.set, h]

/-- Nothing of the fixed part changes. -/
theorem Leads.fixed {s₀ s : State} (h : Leads s₀ s) : s.fixed = s₀.fixed := by
  induction h with
  | start => rfl
  | setLsq s x _ _ ih => exact ih
  | setPort s p x _ hx _ ih => exact (fixed_setPort s p x hx).trans ih
  | setRow s r x _ _ ih => exact ih
  | clearRows s _ ih => exact ih
  | setMsc s x _ _ ih => exact ih
  | setRcx s x _ ih => exact ih
  | setSbm s x _ _ ih => exact ih
  | setWvu s x _ _ ih => exact ih
  | setRdu s x _ ih => exact ih
  | setDtc s x _ ih => exact ih
  | setHcm s x _ _ _ _ _ ih => exact ih
  | setLp s x _ hd _ _ ih => rw [← ih]; simp [State.fixed, hd]
  | setClock s n _ ih => exact ih
  | setFree s n _ ih => exact ih
  | raise s l r _ _ ih => rw [← ih]; simp [raiseClean, addReason, State.fixed]
  | travel s n _ ih => rw [← ih]; unfold copyMeterIfDue; split <;> simp [State.fixed, State.copyMeter]
  | copyMeter s _ ih => exact ih
  | addCause s x _ ih => exact ih

theorem Leads.pending {s₀ s : State} (h : Leads s₀ s) : s.pending = s₀.pending := congrArg (·.1) h.fixed
theorem Leads.resetLine {s₀ s : State} (h : Leads s₀ s) : s.resetLine = s₀.resetLine := congrArg (·.2.1) h.fixed
theorem Leads.settings {s₀ s : State} (h : Leads s₀ s) : s.sst.settings = s₀.sst.settings := congrArg (·.2.2.1) h.fixed
theorem Leads.grants {s₀ s : State} (h : Leads s₀ s) : s.sst.grants = s₀.sst.grants := congrArg (·.2.2.2.1) h.fixed
theorem Leads.sectorA {s₀ s : State} (h : Leads s₀ s) : s.ports.a.sector = s₀.ports.a.sector := congrArg (·.2.2.2.2.1) h.fixed
theorem Leads.sectorB {s₀ s : State} (h : Leads s₀ s) : s.ports.b.sector = s₀.ports.b.sector := congrArg (·.2.2.2.2.2.1) h.fixed
theorem Leads.cart {s₀ s : State} (h : Leads s₀ s) : s.cart = s₀.cart := congrArg (·.2.2.2.2.2.2.1) h.fixed
theorem Leads.divisor {s₀ s : State} (h : Leads s₀ s) : s.lp.divisor = s₀.lp.divisor := congrArg (·.2.2.2.2.2.2.2) h.fixed

theorem Leads.trans {s₀ s t : State} (h : Leads s₀ s) (h' : Leads s t) : Leads s₀ t := by
  induction h' with
  | start => exact h
  | setLsq s x _ hx ih => exact .setLsq s x ih hx
  | setPort s p x _ hx hw ih => exact .setPort s p x ih hx hw
  | setRow s r x _ hx ih => exact .setRow s r x ih hx
  | clearRows s _ ih => exact .clearRows s ih
  | setMsc s x _ hx ih => exact .setMsc s x ih hx
  | setRcx s x _ ih => exact .setRcx s x ih
  | setSbm s x _ hx ih => exact .setSbm s x ih hx
  | setWvu s x _ hx ih => exact .setWvu s x ih hx
  | setRdu s x _ ih => exact .setRdu s x ih
  | setDtc s x _ ih => exact .setDtc s x ih
  | setHcm s x _ h1 h2 h3 h4 ih => exact .setHcm s x ih h1 h2 h3 h4
  | setLp s x _ h1 h2 h3 ih => exact .setLp s x ih h1 h2 h3
  | setClock s n _ ih => exact .setClock s n ih
  | setFree s n _ ih => exact .setFree s n ih
  | raise s l r _ hx ih => exact .raise s l r ih hx
  | travel s n _ ih => exact .travel s n ih
  | copyMeter s _ ih => exact .copyMeter s ih
  | addCause s x _ ih => exact .addCause s x ih

theorem Leads.foldl {α : Type} {s₀ : State} (f : State → α → State) (hf : ∀ s x, Leads s₀ s → Leads s₀ (f s x)) (l : List α) (s : State)
    (h : Leads s₀ s) : Leads s₀ (l.foldl f s) := by
  induction l generalizing s with
  | nil => exact h
  | cons x l ih => exact ih _ (hf s x h)

/-- A port without a session holds no row. -/
theorem holds_of_sessionOf {s : State} {p : Port} (h : s.sessionOf p = none) (r : Part) : s.holds p r = false := by
  have := List.find?_eq_none.1 h r (by revert r; decide)
  simpa using this

theorem clearedRows_holds (s : State) (p : Port) (r : Part) :
    (s.setRows { p0 := Row.empty, p1 := Row.empty, p2 := Row.empty, p3 := Row.empty }).holds p r = false := by
  have : ({ p0 := Row.empty, p1 := Row.empty, p2 := Row.empty, p3 := Row.empty } : PerPart Row).get r = Row.empty := by
    unfold PerPart.get; split <;> rfl
  rw [holds, row, setRows_rows, this]; rfl

/-- One session at a port is kept (R51). -/
theorem setRow_session (s : State) (r : Part) (x : Row)
    (hx : x.holder = (s.row r).holder ∨ x.holder = none ∨ ∃ p, x.holder = some p ∧ s.sessionOf p = none)
    (h : ∀ p a b, s.holds p a = true → s.holds p b = true → a = b) (p : Port) (a b : Part) (ha : (s.setRow r x).holds p a = true)
    (hb : (s.setRow r x).holds p b = true) : a = b := by
  have key : ∀ a, (s.setRow r x).holds p a = true → (a = r ∧ x.holder = some p) ∨ s.holds p a = true := by
    intro a ha
    by_cases e : a = r
    · subst e
      left; refine ⟨rfl, ?_⟩
      simpa [holds, row, State.setRow] using ha
    · right
      simpa [holds, row, State.setRow, PerPart.get_set_other _ _ (Ne.symm e)] using ha
  rcases key a ha with ⟨rfl, ea⟩ | ha' <;> rcases key b hb with ⟨rfl, eb⟩ | hb'
  · rfl
  · rcases hx with hx | hx | ⟨q, hq, hs⟩
    · refine h p _ _ ?_ hb'
      simp [holds, ← hx, ea]
    · rw [hx] at ea; cases ea
    · rw [hq] at ea; cases ea; rw [holds_of_sessionOf hs] at hb'; cases hb'
  · rcases hx with hx | hx | ⟨q, hq, hs⟩
    · refine h p _ _ ha' ?_
      simp [holds, ← hx, eb]
    · rw [hx] at eb; cases eb
    · rw [hq] at eb; cases eb; rw [holds_of_sessionOf hs] at ha'; cases ha'
  · exact h p _ _ ha' hb'

/-- The bounds of `State.Sound` are kept by the shared operations. -/
theorem Leads.sound {s₀ s : State} (h : Leads s₀ s) (h₀ : s₀.Sound) : s.Sound := by
  induction h with
  | start => exact h₀
  | setLsq s x _ hx ih => exact { ih with retries := hx.elim (fun e => e ▸ ih.retries) id }
  | setPort s p x _ hx hw ih =>
    cases p with
    | a =>
      simp only [port, PerPort.get] at hx hw
      exact { ih with
        waiting := ⟨hw.elim (fun e => Nat.le_trans e ih.waiting.1) id, ih.waiting.2⟩
        sectors := ⟨hx ▸ ih.sectors.1, ih.sectors.2⟩
        grantCopy := ⟨hx ▸ ih.grantCopy.1, ih.grantCopy.2⟩ }
    | b =>
      simp only [port, PerPort.get] at hx hw
      exact { ih with
        waiting := ⟨ih.waiting.1, hw.elim (fun e => Nat.le_trans e ih.waiting.2) id⟩
        sectors := ⟨ih.sectors.1, hx ▸ ih.sectors.2⟩
        grantCopy := ⟨ih.grantCopy.1, hx ▸ ih.grantCopy.2⟩ }
  | setRow s r x _ hx ih => exact { ih with session := fun p a b => setRow_session s r x hx ih.session p a b }
  | clearRows s _ ih => exact { ih with session := fun p a b ha => by rw [clearedRows_holds] at ha; cases ha }
  | setMsc s x _ hx ih => exact { ih with burst := hx.elim (fun e => e ▸ ih.burst) id }
  | setRcx s x _ ih => exact { ih with }
  | setSbm s x _ hx ih => exact { ih with
        slots := hx.length.elim (fun e => e.trans ih.slots) id
        writeSide := hx.write.elim (fun e => Nat.le_trans e ih.writeSide) id
        readSide := fun p => (hx.read p).elim (fun e => Nat.le_trans e (ih.readSide p)) id }
  | setWvu s x _ hx ih => exact { ih with backhitches := hx.elim (fun e => e ▸ ih.backhitches) id }
  | setRdu s x _ ih => exact { ih with }
  | setDtc s x _ ih => exact { ih with }
  | setHcm s x _ hm hl hr hh ih =>
    exact { ih with
      meter := hm ▸ ih.meter
      history := hh.elim (fun e => Nat.le_trans e ih.history) id
      meterCopy := hm ▸ ih.meterCopy
      cleanCopy := ⟨hl ▸ ih.cleanCopy.1, hr ▸ ih.cleanCopy.2⟩ }
  | setLp s x _ hd hn _ ih =>
    exact { ih with
      divisor := hd ▸ ih.divisor
      newDivisors := fun d hx => hn.elim (fun e => ih.newDivisors d (e ▸ hx)) (fun e => by rw [State.setLp_lp] at hx; rw [e] at hx; cases hx) }
  | setClock s n _ ih => exact { ih with }
  | setFree s n _ ih => exact { ih with }
  | raise s l r _ _ ih =>
    exact { ih with meterCopy := Nat.lt_add_of_pos_right (by decide), meterStored := ih.meter, cleanCopy := ⟨rfl, rfl⟩ }
  | travel s n _ ih =>
    unfold copyMeterIfDue
    split
    · exact { ih with
        meter := Nat.min_le_left .., meterCopy := Nat.lt_add_of_pos_right (by decide), meterStored := Nat.min_le_left .. }
    · rename_i hd; exact { ih with meter := Nat.min_le_left .., meterCopy := Nat.lt_of_not_le hd }
  | copyMeter s _ ih => exact { ih with meterCopy := Nat.lt_add_of_pos_right (by decide), meterStored := ih.meter }
  | addCause s x _ ih => exact { ih with }

/-- The shared operations never take the clean call down (R176). -/
theorem Leads.clean {s₀ s : State} (h : Leads s₀ s) : cleanRank s₀.hcm.level ≤ cleanRank s.hcm.level := by
  induction h with
  | start => exact Nat.le_refl _
  | setHcm s x _ _ hl _ _ ih => exact hl ▸ ih
  | raise s l r _ hx ih => exact Nat.le_trans ih hx
  | travel s n _ ih => unfold copyMeterIfDue; split <;> exact ih
  | setLsq s x _ _ ih | setPort s p x _ _ _ ih | setRow s r x _ _ ih | clearRows s _ ih | setMsc s x _ _ ih | setRcx s x _ ih | setSbm s x _ _ ih
  | setWvu s x _ _ ih | setRdu s x _ ih | setDtc s x _ ih | setLp s x _ _ _ _ ih | setClock s n _ ih | setFree s n _ ih
  | copyMeter s _ ih | addCause s x _ ih => exact ih

/-- The shared operations take no reason out of the attention summary (R188). -/
theorem Leads.reasons {s₀ s : State} (h : Leads s₀ s) (k : AttentionReason) (hk : s₀.lp.summary.holds k = true) :
    s.lp.summary.holds k = true := by
  induction h with
  | start => exact hk
  | setLp s x _ _ _ hx ih => exact hx k ih
  | raise s l r _ _ ih =>
    simp only [raiseClean, addReason, setLp_lp, setSst_lp, setHcm_lp]
    cases k <;> first | exact ih | rfl
  | travel s n _ ih => unfold copyMeterIfDue; split <;> exact ih
  | setLsq s x _ _ ih | setPort s p x _ _ _ ih | setRow s r x _ _ ih | clearRows s _ ih | setMsc s x _ _ ih | setRcx s x _ ih | setSbm s x _ _ ih
  | setWvu s x _ _ ih | setRdu s x _ ih | setDtc s x _ ih | setHcm s x _ _ _ _ _ ih | setClock s n _ ih | setFree s n _ ih
  | copyMeter s _ ih | addCause s x _ ih => exact ih

/-- The load machine after a Device Reset has no thread retry counted (R37). -/
theorem resetLoad_retries (x : Lsq) : (resetLoad x).retries ≤ 2 := by
  unfold resetLoad Lsq.powerOn
  (repeat' split) <;> exact Nat.zero_le 2

end State

end Sys2Proof.Machine
end

