-- ==== Sys2Proof/Laws/LeadsBuffer.lean ====
section
/-! SUPPORT. One lemma for each shared operation of the frames, status sets, slots, sessions and placement (spec/03, spec/06, spec/10): it leads from a state to one that `State.Leads` allows. -/

namespace Sys2Proof.Machine
namespace State

theorem addReason_leads {s₀ s : State} (h : Leads s₀ s) (k : AttentionReason) : Leads s₀ (s.addReason k) := by
  refine Leads.setLp _ _ h rfl (Or.inl rfl) (fun x hx => ?_)
  cases k <;> cases x <;> simp_all [Summary.add, Summary.holds]

theorem addAttention_leads {s₀ s : State} (h : Leads s₀ s) (p : Port) (k : AttentionKind) : Leads s₀ (State.addAttention s p k) := by
  unfold addAttention
  try dsimp only
  (repeat' split) <;> (repeat' first
    | with_reducible assumption | with_reducible apply Leads.setPort | exact Or.inl rfl | rfl | exact SlotsKept.refl _
    | exact Slot.Keeps.same rfl rfl | exact Slot.Keeps.free _ | exact Slot.Keeps.setPin .. | exact Or.inr (Or.inl rfl) | exact fun _ hk => hk
    | exact Or.inl Nat.le.refl | exact Or.inl (List.length_set ..) | exact Or.inl (List.length_map ..) | exact Or.inl (Nat.zero_le _)
    | exact Or.inr (Nat.zero_le _) | exact Or.inr rfl | exact Or.inl (List.length_mapIdx ..) | decide | intro _)

theorem addFault_leads {s₀ s : State} (h : Leads s₀ s) (p : Port) (f : DeferredFault) : Leads s₀ (State.addFault s p f) := by
  unfold addFault
  try dsimp only
  (repeat' split) <;> (repeat' first
    | with_reducible assumption | with_reducible apply Leads.setPort | exact Or.inl rfl | rfl | exact SlotsKept.refl _
    | exact Slot.Keeps.same rfl rfl | exact Slot.Keeps.free _ | exact Slot.Keeps.setPin .. | exact Or.inr (Or.inl rfl) | exact fun _ hk => hk
    | exact Or.inl Nat.le.refl | exact Or.inl (List.length_set ..) | exact Or.inl (List.length_map ..) | exact Or.inl (Nat.zero_le _)
    | exact Or.inr (Nat.zero_le _) | exact Or.inr rfl | exact Or.inl (List.length_mapIdx ..) | decide | intro _)

theorem setContext_leads {s₀ s : State} (h : Leads s₀ s) (p : Port) (c : Option Context) : Leads s₀ (State.setContext s p c) := by
  unfold setContext
  try dsimp only
  (repeat' split) <;> (repeat' first
    | with_reducible assumption | with_reducible apply Leads.setMsc | exact Or.inl rfl | rfl | exact SlotsKept.refl _ | exact Slot.Keeps.same rfl rfl
    | exact Slot.Keeps.free _ | exact Slot.Keeps.setPin .. | exact Or.inr (Or.inl rfl) | exact fun _ hk => hk | exact Or.inl Nat.le.refl
    | exact Or.inl (List.length_set ..) | exact Or.inl (List.length_map ..) | exact Or.inl (Nat.zero_le _) | exact Or.inr (Nat.zero_le _)
    | exact Or.inr rfl | exact Or.inl (List.length_mapIdx ..) | decide | intro _)

theorem judgeMeter_leads {s₀ s : State} (h : Leads s₀ s) : Leads s₀ s.judgeMeter := by
  unfold judgeMeter
  (repeat' split) <;> first
    | exact h
    | (refine Leads.raise _ _ _ h ?_; cases hl : s.hcm.level <;> simp_all [cleanRank])

theorem judgeQuality_leads {s₀ s : State} (h : Leads s₀ s) : Leads s₀ s.judgeQuality := by
  unfold judgeQuality
  (repeat' split) <;> first
    | exact h
    | (refine Leads.raise _ _ _ h ?_; simp_all [cleanRank])

theorem judgeFault_leads {s₀ s : State} (h : Leads s₀ s) : Leads s₀ s.judgeFault := by
  unfold judgeFault
  split <;> first
    | exact h
    | (refine Leads.raise _ _ _ h ?_; simp_all [cleanRank])

theorem copyMeterIfDue_leads {s₀ s : State} (h : Leads s₀ s) : Leads s₀ s.copyMeterIfDue := by
  unfold copyMeterIfDue
  split
  · exact Leads.copyMeter s h
  · exact h

theorem reportTravel_leads {s₀ s : State} (h : Leads s₀ s) (slots : Nat) : Leads s₀ (s.reportTravel slots) := by
  exact judgeMeter_leads (Leads.travel s slots h)

theorem endMovement_leads {s₀ s : State} (h : Leads s₀ s) : Leads s₀ (State.endMovement s) := by
  unfold endMovement
  try dsimp only
  (repeat' split) <;> (repeat' first
    | with_reducible assumption | with_reducible apply reportTravel_leads | with_reducible apply Leads.setMsc | exact Or.inl rfl | rfl
    | exact SlotsKept.refl _ | exact Slot.Keeps.same rfl rfl | exact Slot.Keeps.free _ | exact Slot.Keeps.setPin .. | exact Or.inr (Or.inl rfl)
    | exact fun _ hk => hk | exact Or.inl Nat.le.refl | exact Or.inl (List.length_set ..) | exact Or.inl (List.length_map ..)
    | exact Or.inl (Nat.zero_le _) | exact Or.inr (Nat.zero_le _) | exact Or.inr rfl | exact Or.inl (List.length_mapIdx ..) | decide | intro _)

theorem finishRecord_leads {s₀ s : State} (h : Leads s₀ s) : Leads s₀ s.finishRecord := by
  unfold finishRecord
  split
  · exact h
  · split
    · refine judgeQuality_leads (Leads.setHcm _ _ h rfl rfl rfl ?_)
      split
      · right; simp only [List.length_append, List.length_singleton]; omega
      · left; simp only [List.length_append, List.length_singleton, List.length_drop]; omega
    · exact Leads.setHcm _ _ h rfl rfl rfl (Or.inl Nat.le.refl)

theorem countLane_leads {s₀ s : State} (h : Leads s₀ s) (write : Bool) (processed : Nat) (errors : Nat) : Leads s₀ (State.countLane s write processed errors) := by
  unfold countLane
  try dsimp only
  (repeat' split) <;> (repeat' first
    | with_reducible assumption | with_reducible apply finishRecord_leads | with_reducible apply Leads.setHcm | exact Or.inl rfl | rfl
    | exact SlotsKept.refl _ | exact Slot.Keeps.same rfl rfl | exact Slot.Keeps.free _ | exact Slot.Keeps.setPin .. | exact Or.inr (Or.inl rfl)
    | exact fun _ hk => hk | exact Or.inl Nat.le.refl | exact Or.inl (List.length_set ..) | exact Or.inl (List.length_map ..)
    | exact Or.inl (Nat.zero_le _) | exact Or.inr (Nat.zero_le _) | exact Or.inr rfl | exact Or.inl (List.length_mapIdx ..) | decide | intro _)

theorem countVerified_leads {s₀ s : State} (h : Leads s₀ s) (extra : Nat) (rewrites : Nat) : Leads s₀ (State.countVerified s extra rewrites) := by
  unfold countVerified
  try dsimp only
  (repeat' split) <;> (repeat' first
    | with_reducible assumption | with_reducible apply Leads.setHcm | exact Or.inl rfl | rfl | exact SlotsKept.refl _ | exact Slot.Keeps.same rfl rfl
    | exact Slot.Keeps.free _ | exact Slot.Keeps.setPin .. | exact Or.inr (Or.inl rfl) | exact fun _ hk => hk | exact Or.inl Nat.le.refl
    | exact Or.inl (List.length_set ..) | exact Or.inl (List.length_map ..) | exact Or.inl (Nat.zero_le _) | exact Or.inr (Nat.zero_le _)
    | exact Or.inr rfl | exact Or.inl (List.length_mapIdx ..) | decide | intro _)

theorem abandonCleaning_leads {s₀ s : State} (h : Leads s₀ s) : Leads s₀ (State.abandonCleaning s) := by
  unfold abandonCleaning
  try dsimp only
  (repeat' split) <;> (repeat' first
    | with_reducible assumption | with_reducible apply Leads.setHcm | exact Or.inl rfl | rfl | exact SlotsKept.refl _ | exact Slot.Keeps.same rfl rfl
    | exact Slot.Keeps.free _ | exact Slot.Keeps.setPin .. | exact Or.inr (Or.inl rfl) | exact fun _ hk => hk | exact Or.inl Nat.le.refl
    | exact Or.inl (List.length_set ..) | exact Or.inl (List.length_map ..) | exact Or.inl (Nat.zero_le _) | exact Or.inr (Nat.zero_le _)
    | exact Or.inr rfl | exact Or.inl (List.length_mapIdx ..) | decide | intro _)

theorem setSlot_leads {s₀ s : State} (h : Leads s₀ s) (i : Nat) (x : Slot) (hx : Slot.Keeps (s.slot i) x) : Leads s₀ (s.setSlot i x) :=
  Leads.setSbm _ _ h (SlotsKept.set _ i x hx)

theorem mapSlots_leads {s₀ s : State} (h : Leads s₀ s) (f : Slot → Slot) (hf : ∀ x, Slot.Keeps x (f x)) : Leads s₀ (s.mapSlots f) :=
  Leads.setSbm _ _ h (SlotsKept.map _ f hf)

theorem tick_leads {s₀ s : State} (h : Leads s₀ s) : Leads s₀ (State.tick s) := by
  unfold tick
  try dsimp only
  (repeat' split) <;> (repeat' first
    | with_reducible assumption | with_reducible apply Leads.setClock | exact Or.inl rfl | rfl | exact SlotsKept.refl _
    | exact Slot.Keeps.same rfl rfl | exact Slot.Keeps.free _ | exact Slot.Keeps.setPin .. | exact Or.inr (Or.inl rfl) | exact fun _ hk => hk
    | exact Or.inl Nat.le.refl | exact Or.inl (List.length_set ..) | exact Or.inl (List.length_map ..) | exact Or.inl (Nat.zero_le _)
    | exact Or.inr (Nat.zero_le _) | exact Or.inr rfl | exact Or.inl (List.length_mapIdx ..) | decide | intro _)

theorem refreshRow_leads {s₀ s : State} (h : Leads s₀ s) (r : Part) : Leads s₀ (State.refreshRow s r) := by
  unfold refreshRow
  try dsimp only
  (repeat' split) <;> (repeat' first
    | with_reducible assumption | with_reducible apply Leads.setRow | exact Or.inl rfl | rfl | exact SlotsKept.refl _ | exact Slot.Keeps.same rfl rfl
    | exact Slot.Keeps.free _ | exact Slot.Keeps.setPin .. | exact Or.inr (Or.inl rfl) | exact fun _ hk => hk | exact Or.inl Nat.le.refl
    | exact Or.inl (List.length_set ..) | exact Or.inl (List.length_map ..) | exact Or.inl (Nat.zero_le _) | exact Or.inr (Nat.zero_le _)
    | exact Or.inr rfl | exact Or.inl (List.length_mapIdx ..) | decide | intro _)

theorem takeSlot_leads {s₀ s : State} (h : Leads s₀ s) (i : Nat) (r : Part) (hi : slotForWriting s.sbm.slots = some i) :
    Leads s₀ (s.takeSlot i r) :=
  Leads.setRow _ _ _ (Leads.setSbm _ _ h (SlotsKept.takeWrite hi _ rfl)) (Or.inl rfl)

theorem takeCopySlot_leads {s₀ s : State} (h : Leads s₀ s) (i : Nat) (p : Port) (r : Part) (hi : slotForWriting s.sbm.slots = some i) :
    Leads s₀ (s.takeCopySlot i p r) :=
  Leads.setSbm _ _ h (SlotsKept.takeWrite hi _ rfl)

theorem countStored_leads {s₀ s : State} (h : Leads s₀ s) (subject : Subject) (n : Nat) : Leads s₀ (State.countStored s subject n) := by
  unfold countStored
  try dsimp only
  (repeat' split) <;> (repeat' first
    | with_reducible assumption | with_reducible apply Leads.setWvu | exact Or.inl rfl | rfl | exact SlotsKept.refl _ | exact Slot.Keeps.same rfl rfl
    | exact Slot.Keeps.free _ | exact Slot.Keeps.setPin .. | exact Or.inr (Or.inl rfl) | exact fun _ hk => hk | exact Or.inl Nat.le.refl
    | exact Or.inl (List.length_set ..) | exact Or.inl (List.length_map ..) | exact Or.inl (Nat.zero_le _) | exact Or.inr (Nat.zero_le _)
    | exact Or.inr rfl | exact Or.inl (List.length_mapIdx ..) | decide | intro _)

theorem placeEntry_leads {s₀ s : State} (h : Leads s₀ s) (i : Nat) (r : Part) (e : Entry) (bytes : List Byte) : Leads s₀ (State.placeEntry s i r e bytes) := by
  unfold placeEntry
  try dsimp only
  (repeat' split) <;> (repeat' first
    | with_reducible assumption | with_reducible apply countStored_leads | with_reducible apply setSlot_leads | exact Slot.Keeps.same rfl rfl
    | exact Slot.Keeps.free _ | exact Slot.Keeps.setPin .. | intro _)

/-- A slot found by its state and owner is there. -/
theorem slot_of_findIdx {s : State} {q : Slot → Bool} {i : Nat} (h : s.sbm.slots.findIdx? q = some i) : q (s.slot i) = true := by
  obtain ⟨hi, h1, -⟩ := List.findIdx?_eq_some_iff_getElem.1 h
  rw [slot, getD_of_lt hi]; exact h1

theorem writeSide_of_assembling {x : Slot} (h : x.state = .assembling) : x.writeSide = true := by rw [Slot.writeSide, h]

theorem writeSide_of_assemblingOf {s : State} {r : Part} {i : Nat} (h : s.assemblingOf r = some i) : (s.slot i).writeSide = true := by
  have := slot_of_findIdx h
  simp only [Bool.and_eq_true, beq_iff_eq] at this
  exact writeSide_of_assembling this.1.1

theorem writeSide_of_ofSession {x : Slot} {r : Part} (h : x.ofSession r = true) : x.writeSide = true := by
  simp only [Slot.ofSession, Bool.and_eq_true] at h; exact h.1.1

theorem writeSide_of_writeSlotOf {s : State} {r : Part} {n i : Nat} (h : s.writeSlotOf r n = some i) : (s.slot i).writeSide = true := by
  have := slot_of_findIdx h
  simp only [Bool.and_eq_true] at this
  exact writeSide_of_ofSession this.1

theorem closeSlot_leads {s₀ s : State} (h : Leads s₀ s) (r : Part) : Leads s₀ (s.closeSlot r) := by
  unfold closeSlot
  split
  · exact h
  · rename_i i hi
    split
    · exact Leads.setRow _ _ _ (setSlot_leads h _ _ (.free _)) (Or.inl rfl)
    · have hk : Slot.Keeps (s.slot i) { s.slot i with state := .ready } := .ofWrite (writeSide_of_assemblingOf hi) rfl
      refine refreshRow_leads (Leads.setRow _ _ _ (setSlot_leads h _ _ hk) ?_) r
      exact Or.inl rfl

theorem closeSlotIfFull_leads {s₀ s : State} (h : Leads s₀ s) (r : Part) : Leads s₀ (State.closeSlotIfFull s r) := by
  unfold closeSlotIfFull
  try dsimp only
  (repeat' split) <;> (repeat' first
    | with_reducible assumption | with_reducible apply closeSlot_leads | intro _)

theorem pinSlot_leads {s₀ s : State} (h : Leads s₀ s) (i : Nat) (p : Port) : Leads s₀ (s.pinSlot i p) :=
  tick_leads (setSlot_leads h _ _ ((Slot.Keeps.setPin _ p true).trans (.same rfl rfl)))

theorem dropPins_leads {s₀ s : State} (h : Leads s₀ s) (p : Port) : Leads s₀ (s.dropPins p) :=
  mapSlots_leads h _ fun x => by
    split
    · exact (Slot.Keeps.setPin x p false).trans (.afterUnpin _ _)
    · exact .refl x

theorem dropPin_leads {s₀ s : State} (h : Leads s₀ s) (i : Nat) (p : Port) : Leads s₀ (s.dropPin i p) :=
  setSlot_leads h _ _ ((Slot.Keeps.setPin _ p false).trans (.afterUnpin _ _))

theorem invalidateSlots_leads {s₀ s : State} (h : Leads s₀ s) (ok : Slot → Bool) : Leads s₀ (s.invalidateSlots ok) :=
  mapSlots_leads h _ fun x => by
    split
    · exact .invalidate x
    · exact .refl x

theorem freeFilling_leads {s₀ s : State} (h : Leads s₀ s) : Leads s₀ (s.freeFilling) :=
  mapSlots_leads h _ fun x => by
    split
    · exact .free x
    · exact .refl x

theorem freeReadSlots_leads {s₀ s : State} (h : Leads s₀ s) (p : Port) : Leads s₀ (s.freeReadSlots p) :=
  dropPins_leads (mapSlots_leads h _ fun x => .resetBy x p) p

theorem discardSlots_leads {s₀ s : State} (h : Leads s₀ s) (r : Part) : Leads s₀ (s.discardSlots r) :=
  mapSlots_leads h _ fun x => by
    split
    · exact .free x
    · exact .refl x

theorem sendHost_leads {s₀ s : State} (h : Leads s₀ s) (p : Port) (f : HostFrame) : Leads s₀ (State.sendHost s p f) := by
  unfold sendHost
  try dsimp only
  (repeat' split) <;> (repeat' first
    | with_reducible assumption | with_reducible apply Leads.setPort | exact Or.inl rfl | rfl | exact SlotsKept.refl _
    | exact Slot.Keeps.same rfl rfl | exact Slot.Keeps.free _ | exact Slot.Keeps.setPin .. | exact Or.inr (Or.inl rfl) | exact fun _ hk => hk
    | exact Or.inl Nat.le.refl | exact Or.inl (List.length_set ..) | exact Or.inl (List.length_map ..) | exact Or.inl (Nat.zero_le _)
    | exact Or.inr (Nat.zero_le _) | exact Or.inr rfl | exact Or.inl (List.length_mapIdx ..) | decide | intro _)

theorem sendLib_leads {s₀ s : State} (h : Leads s₀ s) (result : LibResult) (code : Nat) (detail : LibDetail) : Leads s₀ (State.sendLib s result code detail) := by
  unfold sendLib
  try dsimp only
  (repeat' split) <;> (repeat' first
    | with_reducible assumption | with_reducible apply Leads.setLp | exact Or.inl rfl | rfl | exact SlotsKept.refl _ | exact Slot.Keeps.same rfl rfl
    | exact Slot.Keeps.free _ | exact Slot.Keeps.setPin .. | exact Or.inr (Or.inl rfl) | exact fun _ hk => hk | exact Or.inl Nat.le.refl
    | exact Or.inl (List.length_set ..) | exact Or.inl (List.length_map ..) | exact Or.inl (Nat.zero_le _) | exact Or.inr (Nat.zero_le _)
    | exact Or.inr rfl | exact Or.inl (List.length_mapIdx ..) | decide | intro _)

theorem answerTaken_leads {s₀ s : State} (h : Leads s₀ s) (result : LibResult) (code : Nat) (detail : LibDetail) : Leads s₀ (State.answerTaken s result code detail) :=
  Leads.setLp _ _ (sendLib_leads h result code detail) rfl (Or.inl rfl) (fun _ hk => hk)

theorem endLibrary_leads {s₀ s : State} (h : Leads s₀ s) (c : LibCommand) (result : LibResult) (detail : LibDetail) : Leads s₀ (State.endLibrary s c result detail) := by
  unfold endLibrary
  try dsimp only
  (repeat' split) <;> (repeat' first
    | with_reducible assumption | with_reducible apply answerTaken_leads | with_reducible apply Leads.setLp | exact Or.inl rfl | rfl
    | exact SlotsKept.refl _ | exact Slot.Keeps.same rfl rfl | exact Slot.Keeps.free _ | exact Slot.Keeps.setPin .. | exact Or.inr (Or.inl rfl)
    | exact fun _ hk => hk | exact Or.inl Nat.le.refl | exact Or.inl (List.length_set ..) | exact Or.inl (List.length_map ..)
    | exact Or.inl (Nat.zero_le _) | exact Or.inr (Nat.zero_le _) | exact Or.inr rfl | exact Or.inl (List.length_mapIdx ..) | decide | intro _)

theorem countBurst_leads {s₀ s : State} (h : Leads s₀ s) (p : Port) : Leads s₀ (s.countBurst p) := by
  unfold countBurst
  split
  · refine Leads.setMsc _ _ h (Or.inr ?_)
    dsimp only
    split
    · exact Nat.min_le_left ..
    · decide
  · exact h

theorem stopTransport_leads {s₀ s : State} (h : Leads s₀ s) : Leads s₀ (State.stopTransport s) := by
  unfold stopTransport
  try dsimp only
  (repeat' split) <;> (repeat' first
    | with_reducible assumption | with_reducible apply endMovement_leads | with_reducible apply Leads.setMsc | exact Or.inl rfl | rfl
    | exact SlotsKept.refl _ | exact Slot.Keeps.same rfl rfl | exact Slot.Keeps.free _ | exact Slot.Keeps.setPin .. | exact Or.inr (Or.inl rfl)
    | exact fun _ hk => hk | exact Or.inl Nat.le.refl | exact Or.inl (List.length_set ..) | exact Or.inl (List.length_map ..)
    | exact Or.inl (Nat.zero_le _) | exact Or.inr (Nat.zero_le _) | exact Or.inr rfl | exact Or.inl (List.length_mapIdx ..) | decide | intro _)

theorem endTurn_leads {s₀ s : State} (h : Leads s₀ s) : Leads s₀ (State.endTurn s) := by
  unfold endTurn
  try dsimp only
  (repeat' split) <;> (repeat' first
    | with_reducible assumption | with_reducible apply stopTransport_leads | with_reducible apply countBurst_leads
    | with_reducible apply finishRecord_leads | with_reducible apply Leads.setMsc | exact Or.inl rfl | rfl | exact SlotsKept.refl _
    | exact Slot.Keeps.same rfl rfl | exact Slot.Keeps.free _ | exact Slot.Keeps.setPin .. | exact Or.inr (Or.inl rfl) | exact fun _ hk => hk
    | exact Or.inl Nat.le.refl | exact Or.inl (List.length_set ..) | exact Or.inl (List.length_map ..) | exact Or.inl (Nat.zero_le _)
    | exact Or.inr (Nat.zero_le _) | exact Or.inr rfl | exact Or.inl (List.length_mapIdx ..) | decide | intro _)

theorem yieldTurn_leads {s₀ s : State} (h : Leads s₀ s) (r : Part) (p : Port) : Leads s₀ (State.yieldTurn s r p) := by
  unfold yieldTurn
  try dsimp only
  (repeat' split) <;> (repeat' first
    | with_reducible assumption | with_reducible apply countBurst_leads | with_reducible apply Leads.setMsc | with_reducible apply Leads.setWvu
    | exact Or.inl rfl | rfl | exact SlotsKept.refl _ | exact Slot.Keeps.same rfl rfl | exact Slot.Keeps.free _ | exact Slot.Keeps.setPin ..
    | exact Or.inr (Or.inl rfl) | exact fun _ hk => hk | exact Or.inl Nat.le.refl | exact Or.inl (List.length_set ..)
    | exact Or.inl (List.length_map ..) | exact Or.inl (Nat.zero_le _) | exact Or.inr (Nat.zero_le _) | exact Or.inr rfl
    | exact Or.inl (List.length_mapIdx ..) | decide | intro _)

theorem requestCheckpoint_leads {s₀ s : State} (h : Leads s₀ s) (closing : Bool) : Leads s₀ (State.requestCheckpoint s closing) := by
  unfold requestCheckpoint
  try dsimp only
  (repeat' split) <;> (repeat' first
    | with_reducible assumption | with_reducible apply tick_leads | with_reducible apply Leads.setDtc | exact Or.inl rfl | rfl
    | exact SlotsKept.refl _ | exact Slot.Keeps.same rfl rfl | exact Slot.Keeps.free _ | exact Slot.Keeps.setPin .. | exact Or.inr (Or.inl rfl)
    | exact fun _ hk => hk | exact Or.inl Nat.le.refl | exact Or.inl (List.length_set ..) | exact Or.inl (List.length_map ..)
    | exact Or.inl (Nat.zero_le _) | exact Or.inr (Nat.zero_le _) | exact Or.inr rfl | exact Or.inl (List.length_mapIdx ..) | decide | intro _)

theorem requestCheckpointFromSetting_leads {s₀ s : State} (h : Leads s₀ s) : Leads s₀ (State.requestCheckpointFromSetting s) := by
  unfold requestCheckpointFromSetting
  try dsimp only
  (repeat' split) <;> (repeat' first
    | with_reducible assumption | with_reducible apply requestCheckpoint_leads | intro _)

theorem leaveWaiters_leads {s₀ s : State} (h : Leads s₀ s) (r : Part) : Leads s₀ (State.leaveWaiters s r) := by
  unfold leaveWaiters
  try dsimp only
  (repeat' split) <;> (repeat' first
    | with_reducible assumption | with_reducible apply Leads.setDtc | exact Or.inl rfl | rfl | exact SlotsKept.refl _ | exact Slot.Keeps.same rfl rfl
    | exact Slot.Keeps.free _ | exact Slot.Keeps.setPin .. | exact Or.inr (Or.inl rfl) | exact fun _ hk => hk | exact Or.inl Nat.le.refl
    | exact Or.inl (List.length_set ..) | exact Or.inl (List.length_map ..) | exact Or.inl (Nat.zero_le _) | exact Or.inr (Nat.zero_le _)
    | exact Or.inr rfl | exact Or.inl (List.length_mapIdx ..) | decide | intro _)

theorem clearWriting_leads {s₀ s : State} (h : Leads s₀ s) (r : Part) : Leads s₀ (State.clearWriting s r) := by
  unfold clearWriting
  try dsimp only
  (repeat' split) <;> (repeat' first
    | with_reducible assumption | with_reducible apply Leads.setWvu | exact Or.inl rfl | rfl | exact SlotsKept.refl _ | exact Slot.Keeps.same rfl rfl
    | exact Slot.Keeps.free _ | exact Slot.Keeps.setPin .. | exact Or.inr (Or.inl rfl) | exact fun _ hk => hk | exact Or.inl Nat.le.refl
    | exact Or.inl (List.length_set ..) | exact Or.inl (List.length_map ..) | exact Or.inl (Nat.zero_le _) | exact Or.inr (Nat.zero_le _)
    | exact Or.inr rfl | exact Or.inl (List.length_mapIdx ..) | decide | intro _)

theorem leaveRow_leads {s₀ s : State} (h : Leads s₀ s) (r : Part) : Leads s₀ (State.leaveRow s r) := by
  unfold leaveRow
  try dsimp only
  (repeat' split) <;> (repeat' first
    | with_reducible assumption | with_reducible apply endTurn_leads | with_reducible apply stopTransport_leads
    | with_reducible apply finishRecord_leads | with_reducible apply Leads.setMsc | exact Or.inl rfl | rfl | exact SlotsKept.refl _
    | exact Slot.Keeps.same rfl rfl | exact Slot.Keeps.free _ | exact Slot.Keeps.setPin .. | exact Or.inr (Or.inl rfl) | exact fun _ hk => hk
    | exact Or.inl Nat.le.refl | exact Or.inl (List.length_set ..) | exact Or.inl (List.length_map ..) | exact Or.inl (Nat.zero_le _)
    | exact Or.inr (Nat.zero_le _) | exact Or.inr rfl | exact Or.inl (List.length_mapIdx ..) | decide | intro _)

theorem rowToNone_leads {s₀ s : State} (h : Leads s₀ s) (r : Part) : Leads s₀ (State.rowToNone s r) := by
  unfold rowToNone
  try dsimp only
  (repeat' split) <;> (repeat' first
    | with_reducible assumption | with_reducible apply leaveRow_leads | with_reducible apply clearWriting_leads
    | with_reducible apply leaveWaiters_leads | with_reducible apply Leads.setWvu | with_reducible apply Leads.setRow | exact Or.inl rfl | rfl
    | exact SlotsKept.refl _ | exact Slot.Keeps.same rfl rfl | exact Slot.Keeps.free _ | exact Slot.Keeps.setPin .. | exact Or.inr (Or.inl rfl)
    | exact fun _ hk => hk | exact Or.inl Nat.le.refl | exact Or.inl (List.length_set ..) | exact Or.inl (List.length_map ..)
    | exact Or.inl (Nat.zero_le _) | exact Or.inr (Nat.zero_le _) | exact Or.inr rfl | exact Or.inl (List.length_mapIdx ..) | decide | intro _)

theorem closingDone_leads {s₀ s : State} (h : Leads s₀ s) (r : Part) : Leads s₀ (State.closingDone s r) := by
  unfold closingDone
  try dsimp only
  (repeat' split) <;> (repeat' first
    | with_reducible assumption | with_reducible apply rowToNone_leads | with_reducible apply requestCheckpoint_leads | intro _)

theorem closeNow_leads {s₀ s : State} (h : Leads s₀ s) (r : Part) : Leads s₀ (State.closeNow s r) := by
  unfold closeNow
  try dsimp only
  (repeat' split) <;> (repeat' first
    | with_reducible assumption | with_reducible apply closingDone_leads | with_reducible apply closeSlot_leads | with_reducible apply Leads.setRow
    | exact Or.inl rfl | rfl | exact SlotsKept.refl _ | exact Slot.Keeps.same rfl rfl | exact Slot.Keeps.free _ | exact Slot.Keeps.setPin ..
    | exact Or.inr (Or.inl rfl) | exact fun _ hk => hk | exact Or.inl Nat.le.refl | exact Or.inl (List.length_set ..)
    | exact Or.inl (List.length_map ..) | exact Or.inl (Nat.zero_le _) | exact Or.inr (Nat.zero_le _) | exact Or.inr rfl
    | exact Or.inl (List.length_mapIdx ..) | decide | intro _)

theorem requestClose_leads {s₀ s : State} (h : Leads s₀ s) (r : Part) (forWrite : Bool) : Leads s₀ (State.requestClose s r forWrite) := by
  unfold requestClose
  try dsimp only
  (repeat' split) <;> (repeat' first
    | with_reducible assumption | with_reducible apply closeNow_leads | with_reducible apply Leads.setRow | exact Or.inl rfl | rfl
    | exact SlotsKept.refl _ | exact Slot.Keeps.same rfl rfl | exact Slot.Keeps.free _ | exact Slot.Keeps.setPin .. | exact Or.inr (Or.inl rfl)
    | exact fun _ hk => hk | exact Or.inl Nat.le.refl | exact Or.inl (List.length_set ..) | exact Or.inl (List.length_map ..)
    | exact Or.inl (Nat.zero_le _) | exact Or.inr (Nat.zero_le _) | exact Or.inr rfl | exact Or.inl (List.length_mapIdx ..) | decide | intro _)

theorem writeOutcome_leads {s₀ s : State} (h : Leads s₀ s) (p : Port) (code : Nat) (tag : Nat) (result : HostResult) (detail : Detail) : Leads s₀ (State.writeOutcome s p code tag result detail) := by
  unfold writeOutcome
  try dsimp only
  (repeat' split) <;> (repeat' first
    | with_reducible assumption | with_reducible apply Leads.setPort | exact Or.inl rfl | rfl | exact SlotsKept.refl _
    | exact Slot.Keeps.same rfl rfl | exact Slot.Keeps.free _ | exact Slot.Keeps.setPin .. | exact Or.inr (Or.inl rfl) | exact fun _ hk => hk
    | exact Or.inl Nat.le.refl | exact Or.inl (List.length_set ..) | exact Or.inl (List.length_map ..) | exact Or.inl (Nat.zero_le _)
    | exact Or.inr (Nat.zero_le _) | exact Or.inr rfl | exact Or.inl (List.length_mapIdx ..) | decide | intro _)

theorem afterWrite_leads {s₀ s : State} (h : Leads s₀ s) (p : Port) : Leads s₀ (State.afterWrite s p) := by
  unfold afterWrite
  try dsimp only
  (repeat' split) <;> (repeat' first
    | with_reducible assumption | with_reducible apply closeNow_leads | with_reducible apply refreshRow_leads | with_reducible apply Leads.setRow
    | exact Or.inl rfl | rfl | exact SlotsKept.refl _ | exact Slot.Keeps.same rfl rfl | exact Slot.Keeps.free _ | exact Slot.Keeps.setPin ..
    | exact Or.inr (Or.inl rfl) | exact fun _ hk => hk | exact Or.inl Nat.le.refl | exact Or.inl (List.length_set ..)
    | exact Or.inl (List.length_map ..) | exact Or.inl (Nat.zero_le _) | exact Or.inr (Nat.zero_le _) | exact Or.inr rfl
    | exact Or.inl (List.length_mapIdx ..) | decide | intro _)

theorem refreshSession_leads {s₀ s : State} (h : Leads s₀ s) (p : Port) : Leads s₀ (State.refreshSession s p) := by
  unfold refreshSession
  try dsimp only
  (repeat' split) <;> (repeat' first
    | with_reducible assumption | with_reducible apply refreshRow_leads | intro _)

theorem endCommand_leads {s₀ s : State} (h : Leads s₀ s) (p : Port) (result : HostResult) (detail : Detail) : Leads s₀ (State.endCommand s p result detail) := by
  unfold endCommand
  try dsimp only
  (repeat' split) <;> (repeat' first
    | with_reducible assumption | with_reducible apply refreshSession_leads | with_reducible apply afterWrite_leads
    | with_reducible apply writeOutcome_leads | with_reducible apply sendHost_leads | with_reducible apply Leads.setPort | exact Or.inl rfl | rfl
    | exact SlotsKept.refl _ | exact Slot.Keeps.same rfl rfl | exact Slot.Keeps.free _ | exact Slot.Keeps.setPin .. | exact Or.inr (Or.inl rfl)
    | exact fun _ hk => hk | exact Or.inl Nat.le.refl | exact Or.inl (List.length_set ..) | exact Or.inl (List.length_map ..)
    | exact Or.inl (Nat.zero_le _) | exact Or.inr (Nat.zero_le _) | exact Or.inr rfl | exact Or.inl (List.length_mapIdx ..) | decide | intro _)

theorem setPhase_leads {s₀ s : State} (h : Leads s₀ s) (p : Port) (x : Phase) : Leads s₀ (State.setPhase s p x) := by
  unfold setPhase
  try dsimp only
  (repeat' split) <;> (repeat' first
    | with_reducible assumption | with_reducible apply Leads.setPort | exact Or.inl rfl | rfl | exact SlotsKept.refl _
    | exact Slot.Keeps.same rfl rfl | exact Slot.Keeps.free _ | exact Slot.Keeps.setPin .. | exact Or.inr (Or.inl rfl) | exact fun _ hk => hk
    | exact Or.inl Nat.le.refl | exact Or.inl (List.length_set ..) | exact Or.inl (List.length_map ..) | exact Or.inl (Nat.zero_le _)
    | exact Or.inr (Nat.zero_le _) | exact Or.inr rfl | exact Or.inl (List.length_mapIdx ..) | decide | intro _)

theorem setIntake_leads {s₀ s : State} (h : Leads s₀ s) (p : Port) (x : Intake) : Leads s₀ (State.setIntake s p x) := by
  unfold setIntake
  try dsimp only
  (repeat' split) <;> (repeat' first
    | with_reducible assumption | with_reducible apply Leads.setRcx | exact Or.inl rfl | rfl | exact SlotsKept.refl _ | exact Slot.Keeps.same rfl rfl
    | exact Slot.Keeps.free _ | exact Slot.Keeps.setPin .. | exact Or.inr (Or.inl rfl) | exact fun _ hk => hk | exact Or.inl Nat.le.refl
    | exact Or.inl (List.length_set ..) | exact Or.inl (List.length_map ..) | exact Or.inl (Nat.zero_le _) | exact Or.inr (Nat.zero_le _)
    | exact Or.inr rfl | exact Or.inl (List.length_mapIdx ..) | decide | intro _)

theorem dropRecord_leads {s₀ s : State} (h : Leads s₀ s) (p : Port) : Leads s₀ (State.dropRecord s p) := by
  unfold dropRecord
  try dsimp only
  (repeat' split) <;> (repeat' first
    | with_reducible assumption | with_reducible apply Leads.setRcx | exact Or.inl rfl | rfl | exact SlotsKept.refl _ | exact Slot.Keeps.same rfl rfl
    | exact Slot.Keeps.free _ | exact Slot.Keeps.setPin .. | exact Or.inr (Or.inl rfl) | exact fun _ hk => hk | exact Or.inl Nat.le.refl
    | exact Or.inl (List.length_set ..) | exact Or.inl (List.length_map ..) | exact Or.inl (Nat.zero_le _) | exact Or.inr (Nat.zero_le _)
    | exact Or.inr rfl | exact Or.inl (List.length_mapIdx ..) | decide | intro _)

theorem dropExpansions_leads {s₀ s : State} (h : Leads s₀ s) (p : Port) : Leads s₀ (State.dropExpansions s p) := by
  unfold dropExpansions
  try dsimp only
  (repeat' split) <;> (repeat' first
    | with_reducible assumption | with_reducible apply Leads.setRcx | exact Or.inl rfl | rfl | exact SlotsKept.refl _ | exact Slot.Keeps.same rfl rfl
    | exact Slot.Keeps.free _ | exact Slot.Keeps.setPin .. | exact Or.inr (Or.inl rfl) | exact fun _ hk => hk | exact Or.inl Nat.le.refl
    | exact Or.inl (List.length_set ..) | exact Or.inl (List.length_map ..) | exact Or.inl (Nat.zero_le _) | exact Or.inr (Nat.zero_le _)
    | exact Or.inr rfl | exact Or.inl (List.length_mapIdx ..) | decide | intro _)

theorem withdrawRequests_leads {s₀ s : State} (h : Leads s₀ s) (p : Port) (reason : SlotReason) : Leads s₀ (State.withdrawRequests s p reason) := by
  unfold withdrawRequests
  try dsimp only
  (repeat' split) <;> (repeat' first
    | with_reducible assumption | with_reducible apply Leads.setSbm | exact Or.inl rfl | rfl | exact SlotsKept.refl _ | exact Slot.Keeps.same rfl rfl
    | exact Slot.Keeps.free _ | exact Slot.Keeps.setPin .. | exact Or.inr (Or.inl rfl) | exact fun _ hk => hk | exact Or.inl Nat.le.refl
    | exact Or.inl (List.length_set ..) | exact Or.inl (List.length_map ..) | exact Or.inl (Nat.zero_le _) | exact Or.inr (Nat.zero_le _)
    | exact Or.inr rfl | exact Or.inl (List.length_mapIdx ..) | decide | intro _)

theorem dropPlacing_leads {s₀ s : State} (h : Leads s₀ s) (r : Part) (p : Port) : Leads s₀ (State.dropPlacing s r p) := by
  unfold dropPlacing
  try dsimp only
  (repeat' split) <;> (repeat' first
    | with_reducible assumption | with_reducible apply setIntake_leads | with_reducible apply Leads.setSbm | with_reducible apply Leads.setRow
    | exact Or.inl rfl | rfl | exact SlotsKept.refl _ | exact Slot.Keeps.same rfl rfl | exact Slot.Keeps.free _ | exact Slot.Keeps.setPin ..
    | exact Or.inr (Or.inl rfl) | exact fun _ hk => hk | exact Or.inl Nat.le.refl | exact Or.inl (List.length_set ..)
    | exact Or.inl (List.length_map ..) | exact Or.inl (Nat.zero_le _) | exact Or.inr (Nat.zero_le _) | exact Or.inr rfl
    | exact Or.inl (List.length_mapIdx ..) | decide | intro _)

theorem contextToEnd_leads {s₀ s : State} (h : Leads s₀ s) (r : Part) (p : Port) : Leads s₀ (State.contextToEnd s r p) := by
  unfold contextToEnd
  try dsimp only
  (repeat' split) <;> (repeat' first
    | with_reducible assumption | with_reducible apply setContext_leads | intro _)

theorem setPartDir_leads {s₀ s : State} (h : Leads s₀ s) (r : Part) (f : PartDir → PartDir) : Leads s₀ (State.setPartDir s r f) := by
  unfold setPartDir
  try dsimp only
  (repeat' split) <;> (repeat' first
    | with_reducible assumption | with_reducible apply Leads.setDtc | exact Or.inl rfl | rfl | exact SlotsKept.refl _ | exact Slot.Keeps.same rfl rfl
    | exact Slot.Keeps.free _ | exact Slot.Keeps.setPin .. | exact Or.inr (Or.inl rfl) | exact fun _ hk => hk | exact Or.inl Nat.le.refl
    | exact Or.inl (List.length_set ..) | exact Or.inl (List.length_map ..) | exact Or.inl (Nat.zero_le _) | exact Or.inr (Nat.zero_le _)
    | exact Or.inr rfl | exact Or.inl (List.length_mapIdx ..) | decide | intro _)

theorem noteCut_leads {s₀ s : State} (h : Leads s₀ s) : Leads s₀ (State.noteCut s) := by
  unfold noteCut
  try dsimp only
  (repeat' split) <;> (repeat' first
    | with_reducible assumption | with_reducible apply Leads.setDtc | exact Or.inl rfl | rfl | exact SlotsKept.refl _ | exact Slot.Keeps.same rfl rfl
    | exact Slot.Keeps.free _ | exact Slot.Keeps.setPin .. | exact Or.inr (Or.inl rfl) | exact fun _ hk => hk | exact Or.inl Nat.le.refl
    | exact Or.inl (List.length_set ..) | exact Or.inl (List.length_map ..) | exact Or.inl (Nat.zero_le _) | exact Or.inr (Nat.zero_le _)
    | exact Or.inr rfl | exact Or.inl (List.length_mapIdx ..) | decide | intro _)

theorem noteFallen_leads {s₀ s : State} (h : Leads s₀ s) (r : Part) (object : Nat) : Leads s₀ (State.noteFallen s r object) :=
  .setRdu _ _ h

theorem lowerDirectory_leads {s₀ s : State} (h : Leads s₀ s) (r : Part) (object : Nat) (marks : Nat) : Leads s₀ (State.lowerDirectory s r object marks) := by
  unfold lowerDirectory
  try dsimp only
  (repeat' split) <;> (repeat' first
    | with_reducible assumption | with_reducible apply noteFallen_leads | with_reducible apply noteCut_leads | with_reducible apply setPartDir_leads
    | intro _)

theorem loseCommand_leads {s₀ s : State} (h : Leads s₀ s) (r : Part) (p : Port) : Leads s₀ (State.loseCommand s r p) := by
  unfold loseCommand
  try dsimp only
  (repeat' split) <;> (repeat' first
    | with_reducible assumption | with_reducible apply setIntake_leads | with_reducible apply setPhase_leads | with_reducible apply endCommand_leads
    | with_reducible apply Leads.setPort | exact Or.inl rfl | rfl | exact SlotsKept.refl _ | exact Slot.Keeps.same rfl rfl | exact Slot.Keeps.free _
    | exact Slot.Keeps.setPin .. | exact Or.inr (Or.inl rfl) | exact fun _ hk => hk | exact Or.inl Nat.le.refl | exact Or.inl (List.length_set ..)
    | exact Or.inl (List.length_map ..) | exact Or.inl (Nat.zero_le _) | exact Or.inr (Nat.zero_le _) | exact Or.inr rfl
    | exact Or.inl (List.length_mapIdx ..) | decide | intro _)

theorem loseSession_leads {s₀ s : State} (h : Leads s₀ s) (r : Part) (reason : LossReason) : Leads s₀ (State.loseSession s r reason) := by
  unfold loseSession
  try dsimp only
  (repeat' split) <;> (repeat' first
    | with_reducible assumption | with_reducible apply loseCommand_leads | with_reducible apply lowerDirectory_leads
    | with_reducible apply contextToEnd_leads | with_reducible apply dropPlacing_leads | with_reducible apply leaveRow_leads
    | with_reducible apply clearWriting_leads | with_reducible apply leaveWaiters_leads | with_reducible apply discardSlots_leads
    | with_reducible apply judgeFault_leads | with_reducible apply addFault_leads | with_reducible apply Leads.setLsq
    | with_reducible apply Leads.setSbm | with_reducible apply Leads.setRow | exact Or.inl rfl | rfl | exact SlotsKept.refl _
    | exact Slot.Keeps.same rfl rfl | exact Slot.Keeps.free _ | exact Slot.Keeps.setPin .. | exact Or.inr (Or.inl rfl) | exact fun _ hk => hk
    | exact Or.inl Nat.le.refl | exact Or.inl (List.length_set ..) | exact Or.inl (List.length_map ..) | exact Or.inl (Nat.zero_le _)
    | exact Or.inr (Nat.zero_le _) | exact Or.inr rfl | exact Or.inl (List.length_mapIdx ..) | decide | intro _)

theorem takeNow_leads {s₀ s : State} (h : Leads s₀ s) (r : Part) {t : State} (ht : s.takeNow r = some t) : Leads s₀ t := by
  unfold takeNow at ht
  split at ht
  · cases hw : slotForWriting s.sbm.slots with
    | none => simp [hw] at ht
    | some i => simp only [hw, Option.map_some, Option.some.injEq] at ht; rw [← ht]; exact takeSlot_leads h i r hw
  · cases ht

theorem waitSlot_leads {s₀ s : State} (h : Leads s₀ s) (r : Part) (p : Port) (reason : SlotReason) : Leads s₀ (State.waitSlot s r p reason) := by
  unfold waitSlot
  try dsimp only
  (repeat' split) <;> (repeat' first
    | with_reducible assumption | with_reducible apply Leads.setSbm | exact Or.inl rfl | rfl | exact SlotsKept.refl _ | exact Slot.Keeps.same rfl rfl
    | exact Slot.Keeps.free _ | exact Slot.Keeps.setPin .. | exact Or.inr (Or.inl rfl) | exact fun _ hk => hk | exact Or.inl Nat.le.refl
    | exact Or.inl (List.length_set ..) | exact Or.inl (List.length_map ..) | exact Or.inl (Nat.zero_le _) | exact Or.inr (Nat.zero_le _)
    | exact Or.inr rfl | exact Or.inl (List.length_mapIdx ..) | decide | intro _)

theorem endMarksOk_leads {s₀ s : State} (h : Leads s₀ s) (p : Port) : Leads s₀ (State.endMarksOk s p) := by
  unfold endMarksOk
  try dsimp only
  (repeat' split) <;> (repeat' first
    | with_reducible assumption | with_reducible apply endCommand_leads | with_reducible apply requestCheckpoint_leads | intro _)

theorem endWriteOk_leads {s₀ s : State} (h : Leads s₀ s) (p : Port) : Leads s₀ (State.endWriteOk s p) := by
  unfold endWriteOk
  try dsimp only
  (repeat' split) <;> (repeat' first
    | with_reducible assumption | with_reducible apply endMarksOk_leads | with_reducible apply endCommand_leads | intro _)

theorem advanceHolder_leads {s₀ s : State} (h : Leads s₀ s) (r : Part) (p : Port) (marks : Nat) : Leads s₀ (State.advanceHolder s r p marks) := by
  unfold advanceHolder
  try dsimp only
  (repeat' split) <;> (repeat' first
    | with_reducible assumption | with_reducible apply setContext_leads | intro _)

theorem countAdmitted_leads {s₀ s : State} (h : Leads s₀ s) (r : Part) (p : Port) (marks : Nat) : Leads s₀ (State.countAdmitted s r p marks) := by
  unfold countAdmitted
  try dsimp only
  (repeat' split) <;> (repeat' first
    | with_reducible assumption | with_reducible apply advanceHolder_leads | with_reducible apply Leads.setRow | exact Or.inl rfl | rfl
    | exact SlotsKept.refl _ | exact Slot.Keeps.same rfl rfl | exact Slot.Keeps.free _ | exact Slot.Keeps.setPin .. | exact Or.inr (Or.inl rfl)
    | exact fun _ hk => hk | exact Or.inl Nat.le.refl | exact Or.inl (List.length_set ..) | exact Or.inl (List.length_map ..)
    | exact Or.inl (Nat.zero_le _) | exact Or.inr (Nat.zero_le _) | exact Or.inr rfl | exact Or.inl (List.length_mapIdx ..) | decide | intro _)

theorem finishMarks_leads {s₀ s : State} (h : Leads s₀ s) (p : Port) (r : Part) : Leads s₀ (State.finishMarks s p r) := by
  unfold finishMarks
  try dsimp only
  (repeat' split) <;> (repeat' first
    | with_reducible assumption | with_reducible apply endMarksOk_leads | with_reducible apply setPhase_leads | with_reducible apply closeSlot_leads
    | intro _)

theorem placeMark_leads {s₀ s : State} (h : Leads s₀ s) (i : Nat) (r : Part) (p : Port) : Leads s₀ (State.placeMark s i r p) := by
  unfold placeMark
  try dsimp only
  (repeat' split) <;> (repeat' first
    | with_reducible assumption | with_reducible apply countAdmitted_leads | with_reducible apply closeSlotIfFull_leads
    | with_reducible apply placeEntry_leads | intro _)

theorem placeMarks_leads {s₀ : State} (p : Port) (r : Part) (fuel left : Nat) {s : State} (h : Leads s₀ s) : Leads s₀ (placeMarks p r fuel left s) := by
  induction fuel generalizing left s with
  | zero => exact h
  | succ fuel ih =>
    unfold placeMarks
    split
    · exact finishMarks_leads h p r
    · split
      · split
        · rename_i ht; exact ih _ (takeNow_leads h r ht)
        · exact setPhase_leads (waitSlot_leads h _ _ _) _ _
      · split
        · exact ih _ (placeMark_leads h _ _ _)
        · exact ih _ (closeSlot_leads h _)

theorem startMarks_leads {s₀ s : State} (h : Leads s₀ s) (p : Port) (r : Part) (n : Nat) : Leads s₀ (State.startMarks s p r n) := by
  unfold startMarks
  try dsimp only
  (repeat' split) <;> (repeat' first
    | with_reducible assumption | with_reducible apply placeMarks_leads | with_reducible apply setPhase_leads | intro _)

theorem recordPlaced_leads {s₀ s : State} (h : Leads s₀ s) (p : Port) (r : Part) : Leads s₀ (State.recordPlaced s p r) := by
  unfold recordPlaced
  try dsimp only
  (repeat' split) <;> (repeat' first
    | with_reducible assumption | with_reducible apply endWriteOk_leads | with_reducible apply setPhase_leads | with_reducible apply closeSlot_leads
    | intro _)

theorem closeAfterPlacing_leads {s₀ s : State} (h : Leads s₀ s) (r : Part) : Leads s₀ (State.closeAfterPlacing s r) := by
  unfold closeAfterPlacing
  try dsimp only
  (repeat' split) <;> (repeat' first
    | with_reducible assumption | with_reducible apply closeNow_leads | intro _)

theorem finishPlacing_leads {s₀ s : State} (h : Leads s₀ s) (p : Port) (r : Part) : Leads s₀ (State.finishPlacing s p r) := by
  unfold finishPlacing
  try dsimp only
  (repeat' split) <;> (repeat' first
    | with_reducible assumption | with_reducible apply closeAfterPlacing_leads | with_reducible apply recordPlaced_leads
    | with_reducible apply countAdmitted_leads | with_reducible apply setIntake_leads | with_reducible apply closeSlotIfFull_leads
    | with_reducible apply refreshRow_leads | with_reducible apply Leads.setSbm | exact Or.inl rfl | rfl | exact SlotsKept.refl _
    | exact Slot.Keeps.same rfl rfl | exact Slot.Keeps.free _ | exact Slot.Keeps.setPin .. | exact Or.inr (Or.inl rfl) | exact fun _ hk => hk
    | exact Or.inl Nat.le.refl | exact Or.inl (List.length_set ..) | exact Or.inl (List.length_map ..) | exact Or.inl (Nat.zero_le _)
    | exact Or.inr (Nat.zero_le _) | exact Or.inr rfl | exact Or.inl (List.length_mapIdx ..) | decide | intro _)

theorem placeFragment_leads {s₀ s : State} (h : Leads s₀ s) (p : Port) (g : Placing) (i : Nat) (m : Nat) (raw : Nat) (scheme : Scheme) (bytes : List Byte) : Leads s₀ (State.placeFragment s p g i m raw scheme bytes) := by
  unfold placeFragment
  try dsimp only
  (repeat' split) <;> (repeat' first
    | with_reducible assumption | with_reducible apply setIntake_leads | with_reducible apply closeSlot_leads | with_reducible apply placeEntry_leads
    | with_reducible apply Leads.setSbm | exact Or.inl rfl | rfl | exact SlotsKept.refl _ | exact Slot.Keeps.same rfl rfl | exact Slot.Keeps.free _
    | exact Slot.Keeps.setPin .. | exact Or.inr (Or.inl rfl) | exact fun _ hk => hk | exact Or.inl Nat.le.refl | exact Or.inl (List.length_set ..)
    | exact Or.inl (List.length_map ..) | exact Or.inl (Nat.zero_le _) | exact Or.inr (Nat.zero_le _) | exact Or.inr rfl
    | exact Or.inl (List.length_mapIdx ..) | decide | intro _)

theorem continuePlacing_leads {s₀ : State} (p : Port) (fuel : Nat) {s : State} (h : Leads s₀ s) : Leads s₀ (continuePlacing p fuel s) := by
  induction fuel generalizing s with
  | zero => exact h
  | succ fuel ih =>
    unfold continuePlacing
    split
    · split
      · split
        · rename_i ht; exact ih (takeNow_leads h _ ht)
        · exact waitSlot_leads h _ _ _
      · split
        · exact ih (closeSlot_leads h _)
        · exact ih (placeFragment_leads h ..)
        · exact finishPlacing_leads (placeEntry_leads h ..) _ _
    · exact h

theorem handOver_leads {s₀ s : State} (h : Leads s₀ s) (p : Port) : Leads s₀ (State.handOver s p) := by
  unfold handOver
  try dsimp only
  (repeat' split) <;> (repeat' first
    | with_reducible assumption | with_reducible apply continuePlacing_leads | with_reducible apply setIntake_leads
    | with_reducible apply setPhase_leads | with_reducible apply endCommand_leads | with_reducible apply Leads.setSbm | exact Or.inl rfl | rfl
    | exact SlotsKept.refl _ | exact Slot.Keeps.same rfl rfl | exact Slot.Keeps.free _ | exact Slot.Keeps.setPin .. | exact Or.inr (Or.inl rfl)
    | exact fun _ hk => hk | exact Or.inl Nat.le.refl | exact Or.inl (List.length_set ..) | exact Or.inl (List.length_map ..)
    | exact Or.inl (Nat.zero_le _) | exact Or.inr (Nat.zero_le _) | exact Or.inr rfl | exact Or.inl (List.length_mapIdx ..) | decide | intro _)

theorem giveCredit_leads {s₀ s : State} (h : Leads s₀ s) (p : Port) : Leads s₀ (State.giveCredit s p) := by
  unfold giveCredit
  try dsimp only
  (repeat' split) <;> (repeat' first
    | with_reducible assumption | with_reducible apply setPhase_leads | with_reducible apply sendHost_leads | with_reducible apply Leads.setPort
    | exact Or.inl rfl | rfl | exact SlotsKept.refl _ | exact Slot.Keeps.same rfl rfl | exact Slot.Keeps.free _ | exact Slot.Keeps.setPin ..
    | exact Or.inr (Or.inl rfl) | exact fun _ hk => hk | exact Or.inl Nat.le.refl | exact Or.inl (List.length_set ..)
    | exact Or.inl (List.length_map ..) | exact Or.inl (Nat.zero_le _) | exact Or.inr (Nat.zero_le _) | exact Or.inr rfl
    | exact Or.inl (List.length_mapIdx ..) | decide | intro _)

theorem startRecord_leads {s₀ s : State} (h : Leads s₀ s) (p : Port) (r : Part) (n : Nat) : Leads s₀ (s.startRecord p r n) := by
  have hi := setIntake_leads h p (.receiving n [])
  unfold startRecord
  dsimp only
  split
  · exact giveCredit_leads hi p
  · split
    · rename_i ht; exact giveCredit_leads (takeNow_leads hi r ht) p
    · exact setPhase_leads (waitSlot_leads hi r p .credit) p .awaitSlot

theorem serveRequest_leads {s₀ s : State} (h : Leads s₀ s) (q : SlotRequest) (i : Nat) (hi : slotForWriting s.sbm.slots = some i) :
    Leads s₀ (s.serveRequest q i) := by
  have h1 := Leads.setSbm s { s.sbm with requests := s.sbm.requests.drop 1 } h (SlotsKept.refl _)
  unfold serveRequest
  split
  · exact giveCredit_leads (takeSlot_leads h1 i q.row hi) _
  · exact continuePlacing_leads _ _ (takeSlot_leads h1 i q.row hi)
  · exact placeMarks_leads _ _ _ _ (takeSlot_leads h1 i q.row hi)
  · exact setPhase_leads (takeCopySlot_leads h1 i _ _ hi) _ _

theorem grantRequest_leads {s₀ s : State} (h : Leads s₀ s) : Leads s₀ s.grantRequest := by
  unfold grantRequest
  split
  · exact h
  · split
    · exact h
    · rename_i hi; exact serveRequest_leads h _ _ hi

theorem grantRequests_leads {s₀ : State} (fuel : Nat) {s : State} (h : Leads s₀ s) : Leads s₀ (grantRequests fuel s) := by
  induction fuel generalizing s with
  | zero => exact h
  | succ fuel ih => exact ih (grantRequest_leads h)

theorem settleRequests_leads {s₀ s : State} (h : Leads s₀ s) : Leads s₀ (State.settleRequests s) := by
  unfold settleRequests
  try dsimp only
  (repeat' split) <;> (repeat' first
    | with_reducible assumption | with_reducible apply grantRequests_leads | intro _)

end State
end Sys2Proof.Machine
end

