-- ==== Sys2Proof/Laws/LeadsTransport.lean ====
section
/-! SUPPORT. One lemma for each shared operation of motion, writing, the recovery scan and reading (spec/04, spec/07 to spec/09): it leads from a state to one that `State.Leads` allows. -/

namespace Sys2Proof.Machine
namespace State

theorem setActivity_leads {s₀ s : State} (h : Leads s₀ s) (x : Activity) : Leads s₀ (State.setActivity s x) := by
  unfold setActivity
  try dsimp only
  (repeat' split) <;> (repeat' first
    | with_reducible assumption | with_reducible apply Leads.setMsc | exact Or.inl rfl | rfl | exact SlotsKept.refl _ | exact Slot.Keeps.same rfl rfl
    | exact Slot.Keeps.free _ | exact Slot.Keeps.setPin .. | exact Or.inr (Or.inl rfl) | exact fun _ hk => hk | exact Or.inl Nat.le.refl
    | exact Or.inl (List.length_set ..) | exact Or.inl (List.length_map ..) | exact Or.inl (Nat.zero_le _) | exact Or.inr (Nat.zero_le _)
    | exact Or.inr rfl | exact Or.inl (List.length_mapIdx ..) | decide | intro _)

theorem stream_leads {s₀ s : State} (h : Leads s₀ s) (x : Activity) : Leads s₀ (State.stream s x) := by
  unfold stream
  try dsimp only
  (repeat' split) <;> (repeat' first
    | with_reducible assumption | with_reducible apply Leads.setMsc | exact Or.inl rfl | rfl | exact SlotsKept.refl _ | exact Slot.Keeps.same rfl rfl
    | exact Slot.Keeps.free _ | exact Slot.Keeps.setPin .. | exact Or.inr (Or.inl rfl) | exact fun _ hk => hk | exact Or.inl Nat.le.refl
    | exact Or.inl (List.length_set ..) | exact Or.inl (List.length_map ..) | exact Or.inl (Nat.zero_le _) | exact Or.inr (Nat.zero_le _)
    | exact Or.inr rfl | exact Or.inl (List.length_mapIdx ..) | decide | intro _)

theorem relocate_leads {s₀ s : State} (h : Leads s₀ s) (target : Place) (next : Next) : Leads s₀ (State.relocate s target next) := by
  unfold relocate
  try dsimp only
  (repeat' split) <;> (repeat' first
    | with_reducible assumption | with_reducible apply endMovement_leads | with_reducible apply Leads.setMsc | exact Or.inl rfl | rfl
    | exact SlotsKept.refl _ | exact Slot.Keeps.same rfl rfl | exact Slot.Keeps.free _ | exact Slot.Keeps.setPin .. | exact Or.inr (Or.inl rfl)
    | exact fun _ hk => hk | exact Or.inl Nat.le.refl | exact Or.inl (List.length_set ..) | exact Or.inl (List.length_map ..)
    | exact Or.inl (Nat.zero_le _) | exact Or.inr (Nat.zero_le _) | exact Or.inr rfl | exact Or.inl (List.length_mapIdx ..) | decide | intro _)

theorem headTo_leads {s₀ s : State} (h : Leads s₀ s) (o : Nat) : Leads s₀ (State.headTo s o) := by
  unfold headTo
  try dsimp only
  (repeat' split) <;> (repeat' first
    | with_reducible assumption | with_reducible apply Leads.setMsc | exact Or.inl rfl | rfl | exact SlotsKept.refl _ | exact Slot.Keeps.same rfl rfl
    | exact Slot.Keeps.free _ | exact Slot.Keeps.setPin .. | exact Or.inr (Or.inl rfl) | exact fun _ hk => hk | exact Or.inl Nat.le.refl
    | exact Or.inl (List.length_set ..) | exact Or.inl (List.length_map ..) | exact Or.inl (Nat.zero_le _) | exact Or.inr (Nat.zero_le _)
    | exact Or.inr rfl | exact Or.inl (List.length_mapIdx ..) | decide | intro _)

theorem nextLane_leads {s₀ s : State} (h : Leads s₀ s) : Leads s₀ (State.nextLane s) := by
  unfold nextLane
  try dsimp only
  (repeat' split) <;> (repeat' first
    | with_reducible assumption | with_reducible apply headTo_leads | with_reducible apply finishRecord_leads
    | with_reducible apply endMovement_leads | with_reducible apply Leads.setMsc | exact Or.inl rfl | rfl | exact SlotsKept.refl _
    | exact Slot.Keeps.same rfl rfl | exact Slot.Keeps.free _ | exact Slot.Keeps.setPin .. | exact Or.inr (Or.inl rfl) | exact fun _ hk => hk
    | exact Or.inl Nat.le.refl | exact Or.inl (List.length_set ..) | exact Or.inl (List.length_map ..) | exact Or.inl (Nat.zero_le _)
    | exact Or.inr (Nat.zero_le _) | exact Or.inr rfl | exact Or.inl (List.length_mapIdx ..) | decide | intro _)

/-- A relocation to another lane is stopped past its lateral move exactly when the stop leaves the head on the target lane (R69, R70). -/
theorem lateralDone_relocating {s : State} {start target : Place} {hit : Bool} {next : Next}
    (ha : s.msc.activity = .relocating start target hit next) (hl : start.lane ≠ target.lane) :
    s.lateralDone = (s.stopPlace.1.lane == target.lane) := by
  have h : s.stopPlace.1.lane = start.lane ∨ s.stopPlace.1.lane = target.lane := by
    simp only [stopPlace, ha]
    (repeat' split) <;> simp [toward]
  unfold lateralDone
  simp only [ha]
  rcases h with h | h <;> rw [h]
  · simp [hl]
  · simp [Ne.symm hl]

theorem haltTransport_leads {s₀ s : State} (h : Leads s₀ s) : Leads s₀ (State.haltTransport s) := by
  unfold haltTransport
  try dsimp only
  (repeat' split) <;> (repeat' first
    | with_reducible assumption | with_reducible apply stopTransport_leads | with_reducible apply finishRecord_leads | with_reducible apply Leads.setMsc | with_reducible apply Leads.setFree
    | exact Or.inl rfl | rfl | exact SlotsKept.refl _ | exact Slot.Keeps.same rfl rfl | exact Slot.Keeps.free _ | exact Slot.Keeps.setPin ..
    | exact Or.inr (Or.inl rfl) | exact fun _ hk => hk | exact Or.inl Nat.le.refl | exact Or.inl (List.length_set ..)
    | exact Or.inl (List.length_map ..) | exact Or.inl (Nat.zero_le _) | exact Or.inr (Nat.zero_le _) | exact Or.inr rfl
    | exact Or.inl (List.length_mapIdx ..) | decide | intro _)

theorem haltScan_leads {s₀ s : State} (h : Leads s₀ s) : Leads s₀ (State.haltScan s) := by
  unfold haltScan
  try dsimp only
  (repeat' split) <;> (repeat' first
    | with_reducible assumption | with_reducible apply haltTransport_leads | with_reducible apply headTo_leads
    | with_reducible apply stopTransport_leads | intro _)

theorem beginScan_leads {s₀ s : State} (h : Leads s₀ s) (r : Part) (target : ScanTarget) : Leads s₀ (State.beginScan s r target) := by
  unfold beginScan
  try dsimp only
  (repeat' split) <;> (repeat' first
    | with_reducible assumption | with_reducible apply relocate_leads | with_reducible apply Leads.setMsc | exact Or.inl rfl | rfl
    | exact SlotsKept.refl _ | exact Slot.Keeps.same rfl rfl | exact Slot.Keeps.free _ | exact Slot.Keeps.setPin .. | exact Or.inr (Or.inl rfl)
    | exact fun _ hk => hk | exact Or.inl Nat.le.refl | exact Or.inl (List.length_set ..) | exact Or.inl (List.length_map ..)
    | exact Or.inl (Nat.zero_le _) | exact Or.inr (Nat.zero_le _) | exact Or.inr rfl | exact Or.inl (List.length_mapIdx ..) | decide | intro _)

theorem setLandmark_leads {s₀ s : State} (hs : Leads s₀ s) (r : Part) (lane : Nat) (o : Nat) (h : SegHeader) (l : List Entry) : Leads s₀ (State.setLandmark s r lane o h l) := by
  unfold setLandmark
  try dsimp only
  (repeat' split) <;> (repeat' first
    | with_reducible assumption | with_reducible apply Leads.setMsc | exact Or.inl rfl | rfl | exact SlotsKept.refl _ | exact Slot.Keeps.same rfl rfl
    | exact Slot.Keeps.free _ | exact Slot.Keeps.setPin .. | exact Or.inr (Or.inl rfl) | exact fun _ hk => hk | exact Or.inl Nat.le.refl
    | exact Or.inl (List.length_set ..) | exact Or.inl (List.length_map ..) | exact Or.inl (Nat.zero_le _) | exact Or.inr (Nat.zero_le _)
    | exact Or.inr rfl | exact Or.inl (List.length_mapIdx ..) | decide | intro _)

theorem dropLandmark_leads {s₀ s : State} (h : Leads s₀ s) (bad : Landmark → Bool) : Leads s₀ (State.dropLandmark s bad) := by
  unfold dropLandmark
  try dsimp only
  (repeat' split) <;> (repeat' first
    | with_reducible assumption | with_reducible apply Leads.setMsc | exact Or.inl rfl | rfl | exact SlotsKept.refl _ | exact Slot.Keeps.same rfl rfl
    | exact Slot.Keeps.free _ | exact Slot.Keeps.setPin .. | exact Or.inr (Or.inl rfl) | exact fun _ hk => hk | exact Or.inl Nat.le.refl
    | exact Or.inl (List.length_set ..) | exact Or.inl (List.length_map ..) | exact Or.inl (Nat.zero_le _) | exact Or.inr (Nat.zero_le _)
    | exact Or.inr rfl | exact Or.inl (List.length_mapIdx ..) | decide | intro _)

theorem moveToGoal_leads {s₀ s : State} (h : Leads s₀ s) (g : Goal) : Leads s₀ (State.moveToGoal s g) := by
  unfold moveToGoal
  try dsimp only
  (repeat' split) <;> (repeat' first
    | with_reducible assumption | with_reducible apply beginScan_leads | with_reducible apply relocate_leads | intro _)

theorem moveContext_leads {s₀ s : State} (h : Leads s₀ s) (p : Port) (g : Goal) (object : Nat) (marks : Nat) (atEnd : Bool) : Leads s₀ (State.moveContext s p g object marks atEnd) := by
  unfold moveContext
  try dsimp only
  (repeat' split) <;> (repeat' first
    | with_reducible assumption | with_reducible apply setContext_leads | intro _)

theorem arriveAt_leads {s₀ s : State} (h : Leads s₀ s) (p : Port) (g : Goal) (object : Nat) (marks : Nat) : Leads s₀ (State.arriveAt s p g object marks) := by
  unfold arriveAt
  try dsimp only
  (repeat' split) <;> (repeat' first
    | with_reducible assumption | with_reducible apply moveContext_leads | with_reducible apply endCommand_leads | with_reducible apply endTurn_leads
    | intro _)

theorem arrive_leads {s₀ s : State} (h : Leads s₀ s) (p : Port) (g : Goal) : Leads s₀ (State.arrive s p g) := by
  unfold arrive
  try dsimp only
  (repeat' split) <;> (repeat' first
    | with_reducible assumption | with_reducible apply arriveAt_leads | intro _)

theorem rateFor_leads {s₀ s : State} (h : Leads s₀ s) (subject : Subject) : Leads s₀ (s.rateFor subject) := by
  refine Leads.setWvu _ _ h ?_
  dsimp only [Rate.begin]
  split
  · exact Or.inl rfl
  · exact Or.inr (Nat.zero_le 1)

theorem orderWrite_leads {s₀ s : State} (h : Leads s₀ s) (r : Part) (x : Order) : Leads s₀ (State.orderWrite s r x) := by
  unfold orderWrite
  try dsimp only
  (repeat' split) <;> (repeat' first
    | with_reducible assumption | with_reducible apply rateFor_leads | with_reducible apply relocate_leads | with_reducible apply stream_leads
    | intro _)

theorem runOut_leads {s₀ s : State} (h : Leads s₀ s) : Leads s₀ (State.runOut s) := by
  unfold runOut
  try dsimp only
  (repeat' split) <;> (repeat' first
    | with_reducible assumption | with_reducible apply stream_leads | intro _)

theorem backhitch_leads {s₀ s : State} (h : Leads s₀ s) (r : Part) : Leads s₀ (s.backhitch r) := by
  unfold backhitch
  dsimp only
  refine Leads.setWvu _ _ (Leads.setMsc _ _ (reportTravel_leads (endMovement_leads h) 192) (Or.inl rfl)) (Or.inr ?_)
  dsimp only [Rate.backhitch]
  split
  · exact Nat.le_refl 1
  · exact Nat.zero_le 1

theorem abandonTail_leads {s₀ s : State} (h : Leads s₀ s) (r : Part) : Leads s₀ (State.abandonTail s r) := by
  unfold abandonTail
  try dsimp only
  (repeat' split) <;> (repeat' first
    | with_reducible assumption | with_reducible apply nextLane_leads | with_reducible apply Leads.setMsc | with_reducible apply Leads.setWvu
    | exact Or.inl rfl | rfl | exact SlotsKept.refl _ | exact Slot.Keeps.same rfl rfl | exact Slot.Keeps.free _ | exact Slot.Keeps.setPin ..
    | exact Or.inr (Or.inl rfl) | exact fun _ hk => hk | exact Or.inl Nat.le.refl | exact Or.inl (List.length_set ..)
    | exact Or.inl (List.length_map ..) | exact Or.inl (Nat.zero_le _) | exact Or.inr (Nat.zero_le _) | exact Or.inr rfl
    | exact Or.inl (List.length_mapIdx ..) | decide | intro _)

theorem requeue_leads {s₀ s : State} (h : Leads s₀ s) (r : Part) (n : Nat) : Leads s₀ (s.requeue r n) := by
  unfold requeue
  split
  · exact loseSession_leads h ..
  · refine mapSlots_leads (Leads.setWvu _ _ h ?_) _ fun x => ?_
    · exact Or.inl rfl
    split
    · rename_i hq
      simp only [requeues, Bool.and_eq_true] at hq
      exact .ofWrite (writeSide_of_ofSession hq.1.1) rfl
    · exact .refl x

theorem laneFull_leads {s₀ s : State} (h : Leads s₀ s) (r : Part) : Leads s₀ (State.laneFull s r) := by
  unfold laneFull
  try dsimp only
  (repeat' split) <;> (repeat' first
    | with_reducible assumption | with_reducible apply abandonTail_leads | with_reducible apply loseSession_leads | intro _)

theorem nothingToWrite_leads {s₀ s : State} (h : Leads s₀ s) (r : Part) : Leads s₀ (State.nothingToWrite s r) := by
  unfold nothingToWrite
  try dsimp only
  (repeat' split) <;> (repeat' first
    | with_reducible assumption | with_reducible apply backhitch_leads | with_reducible apply runOut_leads | intro _)

theorem chooseNext_leads {s₀ : State} (r : Part) (fuel : Nat) {s : State} (h : Leads s₀ s) : Leads s₀ (chooseNext r fuel s) := by
  induction fuel generalizing s with
  | zero => exact h
  | succ fuel ih =>
    unfold chooseNext
    (repeat' split) <;> (repeat' first
      | with_reducible assumption | with_reducible apply yieldTurn_leads | with_reducible apply orderWrite_leads
      | with_reducible apply ih | with_reducible apply requeue_leads | with_reducible apply runOut_leads
      | with_reducible apply laneFull_leads | with_reducible apply nothingToWrite_leads)

theorem choose_leads {s₀ s : State} (h : Leads s₀ s) (r : Part) : Leads s₀ (State.choose s r) := by
  unfold choose
  try dsimp only
  (repeat' split) <;> (repeat' first
    | with_reducible assumption | with_reducible apply chooseNext_leads | intro _)

theorem writeSegment_leads {s₀ s : State} (h : Leads s₀ s) (r : Part) (i : Nat) (x : Slot) (hi : (s.slot i).writeSide = true) :
    Leads s₀ (s.writeSegment r i x) := by
  unfold writeSegment
  dsimp only
  refine Leads.setMsc _ _ (headTo_leads (Leads.setWvu _ _ (countLane_leads (setSlot_leads h _ _ ?_) _ _ _) ?_) _) ?_
  · exact .ofWrite hi rfl
  all_goals exact Or.inl rfl

theorem writeRewrite_leads {s₀ s : State} (h : Leads s₀ s) (r : Part) (segment : Nat) (stripe : Nat) : Leads s₀ (State.writeRewrite s r segment stripe) := by
  unfold writeRewrite
  try dsimp only
  (repeat' split) <;> (repeat' first
    | with_reducible assumption | with_reducible apply headTo_leads | with_reducible apply setSlot_leads | with_reducible apply countLane_leads
    | with_reducible apply Leads.setWvu | exact Or.inl rfl | rfl | exact SlotsKept.refl _ | exact Slot.Keeps.same rfl rfl | exact Slot.Keeps.free _
    | exact Slot.Keeps.setPin .. | exact Or.inr (Or.inl rfl) | exact fun _ hk => hk | exact Or.inl Nat.le.refl | exact Or.inl (List.length_set ..)
    | exact Or.inl (List.length_map ..) | exact Or.inl (Nat.zero_le _) | exact Or.inr (Nat.zero_le _) | exact Or.inr rfl
    | exact Or.inl (List.length_mapIdx ..) | decide | intro _)

theorem clearAtEnd_leads {s₀ s : State} (h : Leads s₀ s) (r : Part) (p : Port) : Leads s₀ (State.clearAtEnd s r p) := by
  unfold clearAtEnd
  try dsimp only
  (repeat' split) <;> (repeat' first
    | with_reducible assumption | with_reducible apply setContext_leads | intro _)

theorem verifySegment_leads {s₀ s : State} (h : Leads s₀ s) (r : Part) (i : Nat) : Leads s₀ (State.verifySegment s r i) := by
  unfold verifySegment
  try dsimp only
  (repeat' split) <;> (repeat' first
    | with_reducible assumption | with_reducible apply clearAtEnd_leads | with_reducible apply setLandmark_leads
    | with_reducible apply setPartDir_leads | with_reducible apply refreshRow_leads | with_reducible apply setSlot_leads
    | with_reducible apply countVerified_leads | with_reducible apply Leads.setRow | exact Or.inl rfl | rfl | exact SlotsKept.refl _
    | exact Slot.Keeps.same rfl rfl | exact Slot.Keeps.free _ | exact Slot.Keeps.setPin .. | exact Or.inr (Or.inl rfl) | exact fun _ hk => hk
    | exact Or.inl Nat.le.refl | exact Or.inl (List.length_set ..) | exact Or.inl (List.length_map ..) | exact Or.inl (Nat.zero_le _)
    | exact Or.inr (Nat.zero_le _) | exact Or.inr rfl | exact Or.inl (List.length_mapIdx ..) | decide | intro _)

theorem verifyChain_leads {s₀ : State} (r : Part) (fuel : Nat) {s : State} (h : Leads s₀ s) : Leads s₀ (verifyChain r fuel s) := by
  induction fuel generalizing s with
  | zero => exact h
  | succ fuel ih =>
    unfold verifyChain
    dsimp only
    (repeat' split) <;> (repeat' first
      | with_reducible assumption | with_reducible apply ih | with_reducible apply verifySegment_leads
      | with_reducible apply Leads.setWvu | exact Or.inl rfl)

theorem completeSegment_leads {s₀ s : State} (h : Leads s₀ s) (r : Part) (n : Nat) : Leads s₀ (State.completeSegment s r n) := by
  unfold completeSegment
  try dsimp only
  (repeat' split) <;> (repeat' first
    | with_reducible assumption | with_reducible apply verifyChain_leads | with_reducible apply closingDone_leads | with_reducible apply Leads.setWvu
    | exact Or.inl rfl | rfl | exact SlotsKept.refl _ | exact Slot.Keeps.same rfl rfl | exact Slot.Keeps.free _ | exact Slot.Keeps.setPin ..
    | exact Or.inr (Or.inl rfl) | exact fun _ hk => hk | exact Or.inl Nat.le.refl | exact Or.inl (List.length_set ..)
    | exact Or.inl (List.length_map ..) | exact Or.inl (Nat.zero_le _) | exact Or.inr (Nat.zero_le _) | exact Or.inr rfl
    | exact Or.inl (List.length_mapIdx ..) | decide | intro _)

theorem takeVerify_leads {s₀ s : State} (h : Leads s₀ s) (segment : Nat) (attempt : Nat) (failed : StripeSet) : Leads s₀ (State.takeVerify s segment attempt failed) := by
  unfold takeVerify
  try dsimp only
  (repeat' split) <;> (repeat' first
    | with_reducible assumption | with_reducible apply completeSegment_leads | with_reducible apply Leads.setWvu | with_reducible apply Leads.foldl
    | exact Or.inl rfl | rfl | exact SlotsKept.refl _ | exact Slot.Keeps.same rfl rfl | exact Slot.Keeps.free _ | exact Slot.Keeps.setPin ..
    | exact Or.inr (Or.inl rfl) | exact fun _ hk => hk | exact Or.inl Nat.le.refl | exact Or.inl (List.length_set ..)
    | exact Or.inl (List.length_map ..) | exact Or.inl (Nat.zero_le _) | exact Or.inr (Nat.zero_le _) | exact Or.inr rfl
    | exact Or.inl (List.length_mapIdx ..) | decide | intro _)

theorem takeRewrite_leads {s₀ s : State} (h : Leads s₀ s) (segment : Nat) (stripe : Nat) (passed : Bool) : Leads s₀ (State.takeRewrite s segment stripe passed) := by
  unfold takeRewrite
  try dsimp only
  (repeat' split) <;> (repeat' first
    | with_reducible assumption | with_reducible apply completeSegment_leads | with_reducible apply requeue_leads | with_reducible apply Leads.setWvu
    | exact Or.inl rfl | rfl | exact SlotsKept.refl _ | exact Slot.Keeps.same rfl rfl | exact Slot.Keeps.free _ | exact Slot.Keeps.setPin ..
    | exact Or.inr (Or.inl rfl) | exact fun _ hk => hk | exact Or.inl Nat.le.refl | exact Or.inl (List.length_set ..)
    | exact Or.inl (List.length_map ..) | exact Or.inl (Nat.zero_le _) | exact Or.inr (Nat.zero_le _) | exact Or.inr rfl
    | exact Or.inl (List.length_mapIdx ..) | decide | intro _)

theorem headAtOutcome_leads {s₀ s : State} (h : Leads s₀ s) (last : Nat) : Leads s₀ (State.headAtOutcome s last) := by
  unfold headAtOutcome
  try dsimp only
  (repeat' split) <;> (repeat' first
    | with_reducible assumption | with_reducible apply headTo_leads | intro _)

theorem afterOutcome_leads {s₀ s : State} (h : Leads s₀ s) (o : Nat) : Leads s₀ (State.afterOutcome s o) := by
  unfold afterOutcome
  try dsimp only
  (repeat' split) <;> (repeat' first
    | with_reducible assumption | with_reducible apply choose_leads | intro _)

theorem takeOutcome_leads {s₀ s : State} (h : Leads s₀ s) (x : ChannelOutcome) : Leads s₀ (s.takeOutcome x) := by
  cases x with
  | verify => exact takeVerify_leads h ..
  | rewrite => exact takeRewrite_leads h ..

theorem needStaleMark_leads {s₀ s : State} (h : Leads s₀ s) (r : Part) : Leads s₀ (State.needStaleMark s r) := by
  unfold needStaleMark
  try dsimp only
  (repeat' split) <;> (repeat' first
    | with_reducible assumption | with_reducible apply Leads.setDtc | exact Or.inl rfl | rfl | exact SlotsKept.refl _ | exact Slot.Keeps.same rfl rfl
    | exact Slot.Keeps.free _ | exact Slot.Keeps.setPin .. | exact Or.inr (Or.inl rfl) | exact fun _ hk => hk | exact Or.inl Nat.le.refl
    | exact Or.inl (List.length_set ..) | exact Or.inl (List.length_map ..) | exact Or.inl (Nat.zero_le _) | exact Or.inr (Nat.zero_le _)
    | exact Or.inr rfl | exact Or.inl (List.length_mapIdx ..) | decide | intro _)

theorem recoveryDone_leads {s₀ s : State} (h : Leads s₀ s) : Leads s₀ (State.recoveryDone s) := by
  unfold recoveryDone
  try dsimp only
  (repeat' split) <;> (repeat' first
    | with_reducible assumption | with_reducible apply requestCheckpoint_leads | with_reducible apply endTurn_leads
    | with_reducible apply Leads.setMsc | with_reducible apply Leads.setDtc | exact Or.inl rfl | rfl | exact SlotsKept.refl _
    | exact Slot.Keeps.same rfl rfl | exact Slot.Keeps.free _ | exact Slot.Keeps.setPin .. | exact Or.inr (Or.inl rfl) | exact fun _ hk => hk
    | exact Or.inl Nat.le.refl | exact Or.inl (List.length_set ..) | exact Or.inl (List.length_map ..) | exact Or.inl (Nat.zero_le _)
    | exact Or.inr (Nat.zero_le _) | exact Or.inr rfl | exact Or.inl (List.length_mapIdx ..) | decide | intro _)

theorem recoverFrom_leads {s₀ : State} (fuel n : Nat) {s : State} (h : Leads s₀ s) : Leads s₀ (recoverFrom fuel n s) := by
  induction fuel generalizing n s with
  | zero => exact recoveryDone_leads h
  | succ fuel ih =>
    unfold recoverFrom
    dsimp only
    (repeat' split) <;> first
      | exact recoveryDone_leads h
      | exact ih _ h
      | exact relocate_leads (Leads.setDtc _ _ h) _ _

theorem beginRecovery_leads {s₀ s : State} (h : Leads s₀ s) : Leads s₀ (State.beginRecovery s) := by
  unfold beginRecovery
  try dsimp only
  (repeat' split) <;> (repeat' first
    | with_reducible assumption | with_reducible apply recoverFrom_leads | intro _)

theorem endPartition_leads {s₀ s : State} (h : Leads s₀ s) (x : Recovery) (endPlace : Nat) : Leads s₀ (State.endPartition s x endPlace) := by
  unfold endPartition
  try dsimp only
  (repeat' split) <;> (repeat' first
    | with_reducible assumption | with_reducible apply recoverFrom_leads | with_reducible apply setPartDir_leads | intro _)

theorem setRecovery_leads {s₀ s : State} (h : Leads s₀ s) (x : Recovery) : Leads s₀ (State.setRecovery s x) := by
  unfold setRecovery
  try dsimp only
  (repeat' split) <;> (repeat' first
    | with_reducible assumption | with_reducible apply Leads.setDtc | exact Or.inl rfl | rfl | exact SlotsKept.refl _ | exact Slot.Keeps.same rfl rfl
    | exact Slot.Keeps.free _ | exact Slot.Keeps.setPin .. | exact Or.inr (Or.inl rfl) | exact fun _ hk => hk | exact Or.inl Nat.le.refl
    | exact Or.inl (List.length_set ..) | exact Or.inl (List.length_map ..) | exact Or.inl (Nat.zero_le _) | exact Or.inr (Nat.zero_le _)
    | exact Or.inr rfl | exact Or.inl (List.length_mapIdx ..) | decide | intro _)

theorem passRewrite_leads {s₀ s : State} (h : Leads s₀ s) (x : Recovery) (segment : Nat) (attempt : Nat) (o : Nat) : Leads s₀ (State.passRewrite s x segment attempt o) := by
  unfold passRewrite
  try dsimp only
  (repeat' split) <;> (repeat' first
    | with_reducible assumption | with_reducible apply setRecovery_leads | intro _)

theorem recoveryLaneEnd_leads {s₀ s : State} (h : Leads s₀ s) (x : Recovery) : Leads s₀ (State.recoveryLaneEnd s x) := by
  unfold recoveryLaneEnd
  try dsimp only
  (repeat' split) <;> (repeat' first
    | with_reducible assumption | with_reducible apply setRecovery_leads | with_reducible apply endPartition_leads
    | with_reducible apply nextLane_leads | with_reducible apply headTo_leads | with_reducible apply stream_leads | intro _)

theorem streamFor_leads {s₀ s : State} (h : Leads s₀ s) (x : Activity) : Leads s₀ (State.streamFor s x) := by
  unfold streamFor
  try dsimp only
  (repeat' split) <;> (repeat' first
    | with_reducible assumption | with_reducible apply rateFor_leads | with_reducible apply stream_leads | intro _)

theorem setRead_leads {s₀ s : State} (h : Leads s₀ s) (p : Port) (x : Option ReadState) : Leads s₀ (State.setRead s p x) := by
  unfold setRead
  try dsimp only
  (repeat' split) <;> (repeat' first
    | with_reducible assumption | with_reducible apply Leads.setRdu | exact Or.inl rfl | rfl | exact SlotsKept.refl _ | exact Slot.Keeps.same rfl rfl
    | exact Slot.Keeps.free _ | exact Slot.Keeps.setPin .. | exact Or.inr (Or.inl rfl) | exact fun _ hk => hk | exact Or.inl Nat.le.refl
    | exact Or.inl (List.length_set ..) | exact Or.inl (List.length_map ..) | exact Or.inl (Nat.zero_le _) | exact Or.inr (Nat.zero_le _)
    | exact Or.inr rfl | exact Or.inl (List.length_mapIdx ..) | decide | intro _)

theorem setFill_leads {s₀ s : State} (h : Leads s₀ s) (p : Port) (x : FillState) : Leads s₀ (State.setFill s p x) := by
  unfold setFill
  try dsimp only
  (repeat' split) <;> (repeat' first
    | with_reducible assumption | with_reducible apply Leads.setRdu | exact Or.inl rfl | rfl | exact SlotsKept.refl _ | exact Slot.Keeps.same rfl rfl
    | exact Slot.Keeps.free _ | exact Slot.Keeps.setPin .. | exact Or.inr (Or.inl rfl) | exact fun _ hk => hk | exact Or.inl Nat.le.refl
    | exact Or.inl (List.length_set ..) | exact Or.inl (List.length_map ..) | exact Or.inl (Nat.zero_le _) | exact Or.inr (Nat.zero_le _)
    | exact Or.inr rfl | exact Or.inl (List.length_mapIdx ..) | decide | intro _)

theorem setScan_leads {s₀ s : State} (h : Leads s₀ s) (p : Port) (x : Option ScanState) : Leads s₀ (State.setScan s p x) := by
  unfold setScan
  try dsimp only
  (repeat' split) <;> (repeat' first
    | with_reducible assumption | with_reducible apply Leads.setRdu | exact Or.inl rfl | rfl | exact SlotsKept.refl _ | exact Slot.Keeps.same rfl rfl
    | exact Slot.Keeps.free _ | exact Slot.Keeps.setPin .. | exact Or.inr (Or.inl rfl) | exact fun _ hk => hk | exact Or.inl Nat.le.refl
    | exact Or.inl (List.length_set ..) | exact Or.inl (List.length_map ..) | exact Or.inl (Nat.zero_le _) | exact Or.inr (Nat.zero_le _)
    | exact Or.inr rfl | exact Or.inl (List.length_mapIdx ..) | decide | intro _)

theorem setAcc_leads {s₀ s : State} (h : Leads s₀ s) (x : Option Acc) : Leads s₀ (State.setAcc s x) := by
  unfold setAcc
  try dsimp only
  (repeat' split) <;> (repeat' first
    | with_reducible assumption | with_reducible apply Leads.setRdu | exact Or.inl rfl | rfl | exact SlotsKept.refl _ | exact Slot.Keeps.same rfl rfl
    | exact Slot.Keeps.free _ | exact Slot.Keeps.setPin .. | exact Or.inr (Or.inl rfl) | exact fun _ hk => hk | exact Or.inl Nat.le.refl
    | exact Or.inl (List.length_set ..) | exact Or.inl (List.length_map ..) | exact Or.inl (Nat.zero_le _) | exact Or.inr (Nat.zero_le _)
    | exact Or.inr rfl | exact Or.inl (List.length_mapIdx ..) | decide | intro _)

theorem endTurnOf_leads {s₀ s : State} (h : Leads s₀ s) (x : Job) : Leads s₀ (State.endTurnOf s x) := by
  unfold endTurnOf
  try dsimp only
  (repeat' split) <;> (repeat' first
    | with_reducible assumption | with_reducible apply endTurn_leads | intro _)

theorem endOwnTurn_leads {s₀ s : State} (h : Leads s₀ s) (x : Job) : Leads s₀ (State.endOwnTurn s x) := by
  unfold endOwnTurn
  try dsimp only
  (repeat' split) <;> (repeat' first
    | with_reducible assumption | with_reducible apply endTurnOf_leads | intro _)

theorem lookupRest_leads {s₀ : State} (p : Port) (object : Nat) (r : Part) (fuel n : Nat) {s : State} (h : Leads s₀ s) : Leads s₀ (lookupRest p object r fuel n s).1 := by
  induction fuel generalizing n s with
  | zero => exact h
  | succ fuel ih =>
    unfold lookupRest
    dsimp only
    (repeat' split) <;> first
      | exact h
      | exact ih _ (pinSlot_leads h _ _)
      | exact pinSlot_leads h _ _

theorem lookupRecord_leads {s₀ s : State} (h : Leads s₀ s) (p : Port) (r : Part) (object : Nat) : Leads s₀ (s.lookupRecord p r object).1 := by
  unfold lookupRecord
  dsimp only
  (repeat' split) <;> first
    | exact h
    | exact lookupRest_leads _ _ _ _ _ (pinSlot_leads h _ _)
    | exact pinSlot_leads h _ _

theorem postFill_leads {s₀ s : State} (h : Leads s₀ s) (p : Port) (r : Part) (n : Option Nat) : Leads s₀ (s.postFill p r n) := by
  unfold postFill
  (repeat' split) <;> first
    | exact h
    | exact setFill_leads h _ _

theorem postFillOf_leads {s₀ s : State} (h : Leads s₀ s) (p : Port) (x : Option ReadState) : Leads s₀ (State.postFillOf s p x) := by
  unfold postFillOf
  try dsimp only
  (repeat' split) <;> (repeat' first
    | with_reducible assumption | with_reducible apply postFill_leads | intro _)

theorem endRead_leads {s₀ s : State} (h : Leads s₀ s) (p : Port) (result : HostResult) (detail : Detail) : Leads s₀ (State.endRead s p result detail) := by
  unfold endRead
  try dsimp only
  (repeat' split) <;> (repeat' first
    | with_reducible assumption | with_reducible apply postFillOf_leads | with_reducible apply endOwnTurn_leads | with_reducible apply setRead_leads
    | with_reducible apply dropExpansions_leads | with_reducible apply endCommand_leads | with_reducible apply dropPins_leads | intro _)

theorem advanceReader_leads {s₀ s : State} (h : Leads s₀ s) (p : Port) (x : ReadState) (marks : Nat) : Leads s₀ (State.advanceReader s p x marks) := by
  unfold advanceReader
  try dsimp only
  (repeat' split) <;> (repeat' first
    | with_reducible assumption | with_reducible apply setContext_leads | intro _)

theorem reassemble_leads {s₀ s : State} (h : Leads s₀ s) (p : Port) (x : ReadState) : Leads s₀ (State.reassemble s p x) := by
  unfold reassemble
  try dsimp only
  (repeat' split) <;> (repeat' first
    | with_reducible assumption | with_reducible apply advanceReader_leads | with_reducible apply endRead_leads | with_reducible apply setRead_leads
    | with_reducible apply Leads.setRcx | exact Or.inl rfl | rfl | exact SlotsKept.refl _ | exact Slot.Keeps.same rfl rfl | exact Slot.Keeps.free _
    | exact Slot.Keeps.setPin .. | exact Or.inr (Or.inl rfl) | exact fun _ hk => hk | exact Or.inl Nat.le.refl | exact Or.inl (List.length_set ..)
    | exact Or.inl (List.length_map ..) | exact Or.inl (Nat.zero_le _) | exact Or.inr (Nat.zero_le _) | exact Or.inr rfl
    | exact Or.inl (List.length_mapIdx ..) | decide | intro _)

theorem stopFill_leads {s₀ s : State} (h : Leads s₀ s) (p : Port) : Leads s₀ (State.stopFill s p) := by
  unfold stopFill
  try dsimp only
  (repeat' split) <;> (repeat' first
    | with_reducible assumption | with_reducible apply endTurnOf_leads | with_reducible apply setFill_leads | intro _)

theorem fillMoves_leads {s₀ s : State} (h : Leads s₀ s) (p : Port) : Leads s₀ (State.fillMoves s p) := by
  unfold fillMoves
  try dsimp only
  (repeat' split) <;> (repeat' first
    | with_reducible assumption | with_reducible apply stopFill_leads | with_reducible apply streamFor_leads | intro _)

theorem fillOn_leads {s₀ s : State} (h : Leads s₀ s) (p : Port) : Leads s₀ (State.fillOn s p) := by
  unfold fillOn
  try dsimp only
  (repeat' split) <;> (repeat' first
    | with_reducible assumption | with_reducible apply fillMoves_leads | with_reducible apply stopFill_leads | intro _)

theorem idleRead_leads {s₀ s : State} (h : Leads s₀ s) (p : Port) : Leads s₀ (State.idleRead s p) := by
  unfold idleRead
  try dsimp only
  (repeat' split) <;> (repeat' first
    | with_reducible assumption | with_reducible apply setRead_leads | intro _)

theorem freeCopySlot_leads {s₀ s : State} (h : Leads s₀ s) : Leads s₀ (State.freeCopySlot s) := by
  unfold freeCopySlot
  try dsimp only
  (repeat' split) <;> (repeat' first
    | with_reducible assumption | with_reducible apply setSlot_leads | exact Slot.Keeps.same rfl rfl | exact Slot.Keeps.free _
    | exact Slot.Keeps.setPin .. | intro _)

/-- A scan that ends OK leaves the context at object c with the marks counted at the grant (R154). -/
@[simp] theorem endsAt_ok (x : ScanState) : x.endsAt .ok = (x.objects, x.marks) := rfl

/-- A scan that ends in a fault or abandoned leaves the context at the checked point (R154). -/
theorem endsAt_checked (x : ScanState) (result : HostResult) (h : result ≠ .ok) : x.endsAt result = (x.checkedPoint, x.checkedMarks) := if_neg h

theorem scanContext_leads {s₀ s : State} (h : Leads s₀ s) (p : Port) (r : Part) (object marks : Nat) : Leads s₀ (State.scanContext s p r object marks) := by
  unfold scanContext
  try dsimp only
  (repeat' split) <;> (repeat' first
    | with_reducible assumption | with_reducible apply setContext_leads | intro _)

theorem endScan_leads {s₀ s : State} (h : Leads s₀ s) (p : Port) (x : ScanState) (result : HostResult) (faulty : Option Nat) : Leads s₀ (State.endScan s p x result faulty) := by
  unfold endScan
  try dsimp only
  (repeat' split) <;> (repeat' first
    | with_reducible assumption | with_reducible apply scanContext_leads | with_reducible apply freeCopySlot_leads
    | with_reducible apply endOwnTurn_leads | with_reducible apply setAcc_leads | with_reducible apply setScan_leads
    | with_reducible apply dropExpansions_leads | with_reducible apply endCommand_leads | with_reducible apply dropPins_leads | intro _)

theorem scanSettled_leads {s₀ s : State} (h : Leads s₀ s) (p : Port) : Leads s₀ (State.scanSettled s p) := by
  unfold scanSettled
  try dsimp only
  (repeat' split) <;> (repeat' first
    | with_reducible assumption | with_reducible apply endScan_leads | intro _)

theorem dropScan_leads {s₀ s : State} (h : Leads s₀ s) (p : Port) : Leads s₀ (State.dropScan s p) := by
  unfold dropScan
  try dsimp only
  (repeat' split) <;> (repeat' first
    | with_reducible assumption | with_reducible apply freeCopySlot_leads | with_reducible apply setAcc_leads | with_reducible apply setScan_leads
    | with_reducible apply dropExpansions_leads | with_reducible apply dropPins_leads | intro _)

theorem stopScan_leads {s₀ s : State} (h : Leads s₀ s) (p : Port) : Leads s₀ (State.stopScan s p) := by
  unfold stopScan
  try dsimp only
  (repeat' split) <;> (repeat' first
    | with_reducible assumption | with_reducible apply dropScan_leads | with_reducible apply endTurnOf_leads | intro _)

theorem endStopped_leads {s₀ s : State} (h : Leads s₀ s) : Leads s₀ (State.endStopped s) := by
  unfold endStopped
  try dsimp only
  (repeat' split) <;> (repeat' first
    | with_reducible assumption | with_reducible apply stopScan_leads | with_reducible apply idleRead_leads | with_reducible apply stopFill_leads
    | with_reducible apply endTurn_leads | intro _)

theorem abandonScan_leads {s₀ s : State} (h : Leads s₀ s) (p : Port) (x : ScanState) : Leads s₀ (State.abandonScan s p x) := by
  unfold abandonScan
  try dsimp only
  (repeat' split) <;> (repeat' first
    | with_reducible assumption | with_reducible apply scanSettled_leads | with_reducible apply freeCopySlot_leads
    | with_reducible apply setAcc_leads | with_reducible apply setScan_leads | with_reducible apply stopTransport_leads | intro _)

theorem pendScan_leads {s₀ s : State} (h : Leads s₀ s) (p : Port) : Leads s₀ (State.pendScan s p) := by
  unfold pendScan
  try dsimp only
  (repeat' split) <;> (repeat' first
    | with_reducible assumption | with_reducible apply abandonScan_leads | with_reducible apply setScan_leads
    | with_reducible apply haltTransport_leads | intro _)

theorem releaseScanned_leads {s₀ s : State} (h : Leads s₀ s) (p : Port) (x : ScanState) : Leads s₀ (State.releaseScanned s p x) := by
  unfold releaseScanned
  try dsimp only
  (repeat' split) <;> (repeat' first
    | with_reducible assumption | with_reducible apply setScan_leads | with_reducible apply dropPin_leads | with_reducible apply Leads.foldl
    | exact Or.inl rfl | rfl | exact SlotsKept.refl _ | exact Slot.Keeps.same rfl rfl | exact Slot.Keeps.free _ | exact Slot.Keeps.setPin ..
    | exact Or.inr (Or.inl rfl) | exact fun _ hk => hk | exact Or.inl Nat.le.refl | exact Or.inl (List.length_set ..)
    | exact Or.inl (List.length_map ..) | exact Or.inl (Nat.zero_le _) | exact Or.inr (Nat.zero_le _) | exact Or.inr rfl
    | exact Or.inl (List.length_mapIdx ..) | decide | intro _)

theorem scanSegment_leads {s₀ s : State} (h : Leads s₀ s) (p : Port) (x : ScanState) (i : Nat) (go : State → State) (hgo : ∀ s, Leads s₀ s → Leads s₀ (go s)) : Leads s₀ (State.scanSegment s p x i go) := by
  unfold scanSegment
  try dsimp only
  (repeat' split) <;> (repeat' first
    | with_reducible assumption | with_reducible apply releaseScanned_leads | with_reducible apply abandonScan_leads
    | with_reducible apply scanSettled_leads | with_reducible apply endScan_leads | with_reducible apply setScan_leads
    | with_reducible apply stopTransport_leads | with_reducible apply Leads.setRcx | with_reducible apply hgo | exact Or.inl rfl | rfl
    | exact SlotsKept.refl _ | exact Slot.Keeps.same rfl rfl | exact Slot.Keeps.free _ | exact Slot.Keeps.setPin .. | exact Or.inr (Or.inl rfl)
    | exact fun _ hk => hk | exact Or.inl Nat.le.refl | exact Or.inl (List.length_set ..) | exact Or.inl (List.length_map ..)
    | exact Or.inl (Nat.zero_le _) | exact Or.inr (Nat.zero_le _) | exact Or.inr rfl | exact Or.inl (List.length_mapIdx ..) | decide | intro _)

theorem dropCopy_leads {s₀ s : State} (h : Leads s₀ s) (p : Port) : Leads s₀ (s.dropCopy p) :=
  mapSlots_leads h _ fun x => by
    split
    · exact .free x
    · exact .refl x

theorem endTruncate_leads {s₀ s : State} (h : Leads s₀ s) (p : Port) (result : HostResult) : Leads s₀ (State.endTruncate s p result) := by
  unfold endTruncate
  try dsimp only
  (repeat' split) <;> (repeat' first
    | with_reducible assumption | with_reducible apply dropCopy_leads | with_reducible apply endOwnTurn_leads | with_reducible apply setAcc_leads
    | with_reducible apply endCommand_leads | intro _)

theorem contextAtCut_leads {s₀ s : State} (h : Leads s₀ s) (r : Part) (p : Port) (object : Nat) (marks : Nat) : Leads s₀ (State.contextAtCut s r p object marks) := by
  unfold contextAtCut
  try dsimp only
  (repeat' split) <;> (repeat' first
    | with_reducible assumption | with_reducible apply setContext_leads | with_reducible apply addAttention_leads | intro _)

theorem cutCopy_leads {s₀ s : State} (h : Leads s₀ s) (k i : Nat) (x : Slot) (hk : (s.slot k).writeSide = true) (hx : x.readSide = false) :
    Leads s₀ (s.cutCopy k i x) :=
  Leads.setSbm _ _ h (SlotsKept.cut _ k i x hk hx)

theorem truncateAt_leads {s₀ s : State} (h : Leads s₀ s) (p : Port) (r : Part) (k i lane o object : Nat) (hk : (s.slot k).writeSide = true)
    (hs : s.sessionOf p = none) : Leads s₀ (s.truncateAt p r k i lane o object) := by
  unfold truncateAt
  dsimp only
  (repeat' split) <;> (repeat' first
    | with_reducible assumption | with_reducible apply endTurnOf_leads | with_reducible apply endCommand_leads
    | with_reducible apply setAcc_leads | with_reducible apply closeSlotIfFull_leads | with_reducible apply contextAtCut_leads
    | with_reducible apply setContext_leads | with_reducible apply noteFallen_leads | with_reducible apply needStaleMark_leads | with_reducible apply dropLandmark_leads
    | with_reducible apply invalidateSlots_leads | with_reducible apply noteCut_leads | with_reducible apply setPartDir_leads
    | with_reducible apply Leads.setRow | with_reducible apply cutCopy_leads | exact Or.inr (Or.inr ⟨p, rfl, hs⟩) | rfl)

theorem refuseTruncate_leads {s₀ s : State} (h : Leads s₀ s) (p : Port) (result : HostResult) (detail : Detail) : Leads s₀ (State.refuseTruncate s p result detail) := by
  unfold refuseTruncate
  try dsimp only
  (repeat' split) <;> (repeat' first
    | with_reducible assumption | with_reducible apply dropCopy_leads | with_reducible apply endTurnOf_leads | with_reducible apply setAcc_leads
    | with_reducible apply endCommand_leads | intro _)

theorem truncateDone_leads {s₀ s : State} (h : Leads s₀ s) (p : Port) (r : Part) (k i lane o object : Nat)
    (hk : (s.slot k).writeSide = true) : Leads s₀ (s.truncateDone p r k i lane o object) := by
  unfold truncateDone
  split
  · exact refuseTruncate_leads h ..
  · split
    · rename_i hc
      simp only [Bool.and_eq_true, Option.isNone_iff_eq_none] at hc
      exact truncateAt_leads h _ _ _ _ _ _ _ hk hc.2
    · exact refuseTruncate_leads h ..

theorem startCopy_leads {s₀ s : State} (h : Leads s₀ s) (a : Acc) : Leads s₀ (State.startCopy s a) := by
  unfold startCopy
  try dsimp only
  (repeat' split) <;> (repeat' first
    | with_reducible assumption | with_reducible apply setAcc_leads | with_reducible apply streamFor_leads | intro _)

theorem takeReadSlot_leads {s₀ s : State} (h : Leads s₀ s) (i : Nat) (p : Port) (r : Part) (n : Nat) (hi : slotForRead s.sbm.slots p = some i) :
    Leads s₀ (s.takeReadSlot i p r n) :=
  Leads.setSbm _ _ h (SlotsKept.takeRead hi _ rfl rfl)

theorem readAwaitsSlot_leads {s₀ s : State} (h : Leads s₀ s) (p : Port) (x : ReadState) : Leads s₀ (State.readAwaitsSlot s p x) := by
  unfold readAwaitsSlot
  try dsimp only
  (repeat' split) <;> (repeat' first
    | with_reducible assumption | with_reducible apply endTurnOf_leads | with_reducible apply setRead_leads | intro _)

theorem finishReadTurn_leads {s₀ s : State} (h : Leads s₀ s) (p : Port) (x : ReadState) : Leads s₀ (State.finishReadTurn s p x) := by
  unfold finishReadTurn
  try dsimp only
  (repeat' split) <;> (repeat' first
    | with_reducible assumption | with_reducible apply reassemble_leads | with_reducible apply postFill_leads | with_reducible apply endTurnOf_leads
    | intro _)

theorem readHolds_leads {s₀ s : State} (h : Leads s₀ s) (p : Port) (x : ReadState) (n i : Nat) : Leads s₀ (s.readHolds p x n i).1 :=
  setRead_leads (pinSlot_leads h i p) p _

theorem readOn_leads {s₀ s : State} (h : Leads s₀ s) (p : Port) (x : ReadState) (go : State → State) (hgo : ∀ s, Leads s₀ s → Leads s₀ (go s)) : Leads s₀ (State.readOn s p x go) := by
  unfold readOn
  try dsimp only
  (repeat' split) <;> (repeat' first
    | with_reducible assumption | with_reducible apply finishReadTurn_leads | with_reducible apply hgo | intro _)

theorem readCopy_leads {s₀ s : State} (h : Leads s₀ s) (p : Port) (x : ReadState) (n : Nat) (attempt : Option Nat) (o : Nat) : Leads s₀ (State.readCopy s p x n attempt o) := by
  unfold readCopy
  try dsimp only
  (repeat' split) <;> (repeat' first
    | with_reducible assumption | with_reducible apply readOn_leads | with_reducible apply readHolds_leads
    | with_reducible apply readAwaitsSlot_leads | with_reducible apply takeReadSlot_leads | with_reducible apply startCopy_leads
    | with_reducible apply streamFor_leads | with_reducible apply settleRequests_leads | intro _)

theorem scanCopy_leads {s₀ s : State} (h : Leads s₀ s) (p : Port) (x : ScanState) (n : Nat) (attempt : Option Nat) (o : Nat) : Leads s₀ (State.scanCopy s p x n attempt o) := by
  unfold scanCopy
  try dsimp only
  (repeat' split) <;> (repeat' first
    | with_reducible assumption | with_reducible apply takeReadSlot_leads | with_reducible apply startCopy_leads | with_reducible apply setAcc_leads
    | with_reducible apply setActivity_leads | with_reducible apply settleRequests_leads | with_reducible apply stopTransport_leads
    | with_reducible apply pinSlot_leads | intro _)

theorem fillCopy_leads {s₀ s : State} (h : Leads s₀ s) (p : Port) (r : Part) (n : Nat) (attempt : Option Nat) (o : Nat) :
    Leads s₀ (s.fillCopy p r n attempt o) := by
  unfold fillCopy
  dsimp only
  split
  · exact fillMoves_leads (setFill_leads h _ _) _
  · split
    · exact stopFill_leads (settleRequests_leads h) _
    · rename_i hi
      exact startCopy_leads (takeReadSlot_leads (settleRequests_leads h) _ _ _ _ (slotForRead_of_fill hi)) _

theorem judgeMeter_sbm (s : State) : s.judgeMeter.sbm = s.sbm := by
  unfold judgeMeter
  (repeat' split) <;> rfl

theorem reportTravel_sbm (s : State) (n : Nat) : (s.reportTravel n).sbm = s.sbm := by
  rw [reportTravel, judgeMeter_sbm]
  unfold copyMeterIfDue
  split <;> rfl

/-- The transport's stop leaves the buffer as it is. -/
theorem stopTransport_sbm (s : State) : s.stopTransport.sbm = s.sbm := by
  have : s.endMovement.sbm = s.sbm := by
    unfold endMovement
    split
    · rfl
    · rw [reportTravel_sbm]; rfl
  exact this

theorem writeSide_of_copySlot {s : State} {p : Port} {k : Nat} (h : s.copySlot p = some k) : (s.slot k).writeSide = true := by
  have := slot_of_findIdx h
  simp only [Bool.and_eq_true, beq_iff_eq] at this
  exact writeSide_of_assembling this.1

theorem slot_setSlot_of_write {s : State} {i : Nat} {x : Slot} (h : (s.slot i).writeSide = true) : (s.setSlot i x).slot i = x := by
  have hi : i < s.sbm.slots.length := Nat.lt_of_not_le fun hc => by
    have : s.slot i = Slot.free := by simp [slot, List.getD, List.getElem?_eq_none hc]
    rw [this] at h; cases h
  simp [slot, setSlot, hi]

theorem truncateFound_leads {s₀ s : State} (h : Leads s₀ s) (p : Port) (r : Part) (n : Nat) (attempt : Option Nat) (o : Nat)
    (begin : State → Acc → State) (hbegin : ∀ s a, Leads s₀ s → Leads s₀ (begin s a)) : Leads s₀ (s.truncateFound p r n attempt o begin) := by
  unfold truncateFound
  split
  · exact endTruncate_leads h ..
  · rename_i k hk
    dsimp only
    split
    · split
      · refine hbegin _ _ (setSlot_leads (setSlot_leads h _ _ ?_) _ _ ?_) <;> exact .same rfl rfl
      · refine truncateDone_leads (stopTransport_leads h) _ _ _ _ _ _ _ ?_
        rw [slot, stopTransport_sbm]
        exact writeSide_of_copySlot hk
    · refine hbegin _ _ (setSlot_leads h _ _ ?_); exact .same rfl rfl

theorem failScan_leads {s₀ s : State} (h : Leads s₀ s) : Leads s₀ (State.failScan s) := by
  unfold failScan
  try dsimp only
  (repeat' split) <;> (repeat' first
    | with_reducible assumption | with_reducible apply endTruncate_leads | with_reducible apply endStopped_leads | with_reducible apply endScan_leads
    | with_reducible apply endRead_leads | with_reducible apply setAcc_leads | with_reducible apply endCommand_leads
    | with_reducible apply endTurn_leads | with_reducible apply stopTransport_leads | intro _)

theorem scanFinds_leads {s₀ s : State} (hs : Leads s₀ s) (r : Part) (o : Nat) (h : SegHeader) (object : Nat) (marks : Nat) (begin : State → Acc → State) (hbegin : ∀ s a, Leads s₀ s → Leads s₀ (begin s a)) : Leads s₀ (State.scanFinds s r o h object marks begin) := by
  unfold scanFinds
  try dsimp only
  (repeat' split) <;> (repeat' first
    | with_reducible assumption | with_reducible apply truncateFound_leads | with_reducible apply readOn_leads | with_reducible apply readHolds_leads
    | with_reducible apply readAwaitsSlot_leads | with_reducible apply takeReadSlot_leads | with_reducible apply abandonScan_leads
    | with_reducible apply setAcc_leads | with_reducible apply setScan_leads | with_reducible apply setRead_leads
    | with_reducible apply streamFor_leads | with_reducible apply arriveAt_leads | with_reducible apply setActivity_leads
    | with_reducible apply settleRequests_leads | with_reducible apply endTurn_leads | with_reducible apply stopTransport_leads
    | with_reducible apply pinSlot_leads | with_reducible apply hbegin | intro _)

theorem scanHeader_leads {s₀ s : State} (hs : Leads s₀ s) (x : HeaderScan) (lane : Nat) (o : Nat) (h : SegHeader) (l : List Entry) (begin : State → Acc → State) (go : State → State) (hbegin : ∀ s a, Leads s₀ s → Leads s₀ (begin s a)) (hgo : ∀ s, Leads s₀ s → Leads s₀ (go s)) : Leads s₀ (State.scanHeader s x lane o h l begin go) := by
  unfold scanHeader
  try dsimp only
  (repeat' split) <;> (repeat' first
    | with_reducible assumption | with_reducible apply scanFinds_leads | with_reducible apply failScan_leads | with_reducible apply setLandmark_leads
    | with_reducible apply Leads.setMsc | with_reducible apply hbegin | with_reducible apply hgo | exact Or.inl rfl | rfl | exact SlotsKept.refl _
    | exact Slot.Keeps.same rfl rfl | exact Slot.Keeps.free _ | exact Slot.Keeps.setPin .. | exact Or.inr (Or.inl rfl) | exact fun _ hk => hk
    | exact Or.inl Nat.le.refl | exact Or.inl (List.length_set ..) | exact Or.inl (List.length_map ..) | exact Or.inl (Nat.zero_le _)
    | exact Or.inr (Nat.zero_le _) | exact Or.inr rfl | exact Or.inl (List.length_mapIdx ..) | decide | intro _)

theorem goOn_leads {s₀ s : State} (h : Leads s₀ s) (a : Acc) (ahead : Bool) : Leads s₀ (State.goOn s a ahead) := by
  unfold goOn
  try dsimp only
  (repeat' split) <;> (repeat' first
    | with_reducible assumption | with_reducible apply streamFor_leads | with_reducible apply relocate_leads | intro _)

theorem beginCopy_leads {s₀ s : State} (h : Leads s₀ s) (a : Acc) : Leads s₀ (State.beginCopy s a) := by
  unfold beginCopy
  try dsimp only
  (repeat' split) <;> (repeat' first
    | with_reducible assumption | with_reducible apply startCopy_leads | with_reducible apply setAcc_leads | with_reducible apply relocate_leads
    | intro _)

theorem cacheSlot_leads {s₀ s : State} (h : Leads s₀ s) (i : Nat) (c : Segment) : Leads s₀ (s.cacheSlot i c) := by
  unfold cacheSlot
  split
  · rename_i hf
    have hk : Slot.Keeps (s.slot i) { s.slot i with state := .cached, header := c.header, entries := c.entries, payload := c.payload, lastUse := some s.clock } :=
      ⟨(fun e => by cases e), fun p e => by simpa [Slot.readsFor, Slot.readSide, hf] using e⟩
    exact tick_leads (setSlot_leads h _ _ hk)
  · exact h

theorem giveBack_leads {s₀ s : State} (h : Leads s₀ s) (i : Nat) (p : Port) : Leads s₀ (s.giveBack i p) := by
  unfold giveBack
  split
  · exact setSlot_leads h _ _ (.free _)
  · exact dropPin_leads h _ _

theorem keepRead_leads {s₀ s : State} (h : Leads s₀ s) (i : Nat) (c : Segment) : Leads s₀ (s.keepRead i c) := by
  unfold keepRead
  (repeat' split)
  · exact setSlot_leads (cacheSlot_leads h i c) _ _ (.afterUnpin _ _)
  · exact setSlot_leads h _ _ (.free _)
  · exact h

theorem keepStopped_leads {s₀ s : State} (h : Leads s₀ s) (i : Nat) (c : Segment) : Leads s₀ (State.keepStopped s i c) := by
  unfold keepStopped
  try dsimp only
  (repeat' split) <;> (repeat' first
    | with_reducible assumption | with_reducible apply keepRead_leads | with_reducible apply endStopped_leads | intro _)

theorem readRecovered_leads {s₀ s : State} (h : Leads s₀ s) (p : Port) (a : Acc) (c : Segment) (ahead : Bool) :
    Leads s₀ (s.readRecovered p a c ahead) := by
  unfold readRecovered
  dsimp only
  (repeat' split) <;> first
    | exact keepStopped_leads h ..
    | exact endTurnOf_leads h _
    | exact goOn_leads (setSlot_leads h _ _ (.free _)) ..
    | exact readOn_leads (setRead_leads (setSlot_leads (cacheSlot_leads h ..) _ _ (.setPin ..)) ..) _ _ _ (fun _ ht => goOn_leads ht ..)

theorem fillPast_leads {s₀ s : State} (h : Leads s₀ s) (p : Port) (a : Acc) (ahead : Bool) : Leads s₀ (State.fillPast s p a ahead) := by
  unfold fillPast
  try dsimp only
  split
  · exact goOn_leads (fillOn_leads h p) a ahead
  · exact fillOn_leads h p

theorem fillRecovered_leads {s₀ s : State} (h : Leads s₀ s) (p : Port) (a : Acc) (c : Segment) (ahead : Bool) : Leads s₀ (State.fillRecovered s p a c ahead) := by
  unfold fillRecovered
  try dsimp only
  (repeat' split) <;> (repeat' first
    | with_reducible assumption | with_reducible apply cacheSlot_leads | with_reducible apply fillPast_leads
    | with_reducible apply stopFill_leads | with_reducible apply setFill_leads | with_reducible apply setSlot_leads | exact Slot.Keeps.same rfl rfl
    | exact Slot.Keeps.free _ | exact Slot.Keeps.setPin .. | intro _)

theorem scanRecovered_leads {s₀ s : State} (h : Leads s₀ s) (p : Port) (a : Acc) (c : Segment) (ahead : Bool) : Leads s₀ (State.scanRecovered s p a c ahead) := by
  unfold scanRecovered
  try dsimp only
  (repeat' split) <;> (repeat' first
    | with_reducible assumption | with_reducible apply keepStopped_leads | with_reducible apply cacheSlot_leads | with_reducible apply goOn_leads
    | with_reducible apply scanSegment_leads | with_reducible apply abandonScan_leads | with_reducible apply endScan_leads
    | with_reducible apply endTurnOf_leads | with_reducible apply giveBack_leads | with_reducible apply setSlot_leads | exact Slot.Keeps.same rfl rfl
    | exact Slot.Keeps.free _ | exact Slot.Keeps.setPin .. | intro _)

theorem recoveryHeader_leads {s₀ s : State} (hs : Leads s₀ s) (x : Recovery) (o : Nat) (h : SegHeader) (l : List Entry) : Leads s₀ (State.recoveryHeader s x o h l) := by
  unfold recoveryHeader
  try dsimp only
  (repeat' split) <;> (repeat' first
    | with_reducible assumption | with_reducible apply startCopy_leads | with_reducible apply setRecovery_leads
    | with_reducible apply endPartition_leads | with_reducible apply setLandmark_leads | intro _)

theorem recoveryRecovered_leads {s₀ s : State} (h : Leads s₀ s) (x : Recovery) (a : Acc) (c : Segment) (ahead : Bool) : Leads s₀ (State.recoveryRecovered s x a c ahead) := by
  unfold recoveryRecovered
  try dsimp only
  (repeat' split) <;> (repeat' first
    | with_reducible assumption | with_reducible apply goOn_leads | with_reducible apply setRecovery_leads | with_reducible apply endPartition_leads
    | intro _)

theorem truncateRecovered_leads {s₀ s : State} (h : Leads s₀ s) (p : Port) (a : Acc) (c : Segment) : Leads s₀ (s.truncateRecovered p a c) := by
  unfold truncateRecovered
  split
  · exact endStopped_leads h
  · split
    · exact endTruncate_leads h ..
    · rename_i i hi
      have hk : Slot.Keeps { s.slot i with header := c.header, entries := c.entries, payload := c.payload } (s.slot i) := .same rfl rfl
      refine truncateDone_leads (setSlot_leads h _ _ ?_) _ _ _ _ _ _ _ ?_
      · exact .same rfl rfl
      · rw [slot_setSlot_of_write (writeSide_of_copySlot hi)]
        exact hk.write (writeSide_of_copySlot hi)

theorem headerRecovered_leads {s₀ s : State} (h : Leads s₀ s) (a : Acc) (c : Segment) (ahead : Bool) : Leads s₀ (State.headerRecovered s a c ahead) := by
  unfold headerRecovered
  try dsimp only
  (repeat' split) <;> (repeat' first
    | with_reducible assumption | with_reducible apply beginCopy_leads | with_reducible apply scanHeader_leads | with_reducible apply endStopped_leads
    | with_reducible apply abandonScan_leads | with_reducible apply streamFor_leads | with_reducible apply relocate_leads
    | with_reducible apply Leads.setMsc | exact Or.inl rfl | intro _)

theorem recovered_leads {s₀ s : State} (h : Leads s₀ s) (a : Acc) (ahead : Bool) : Leads s₀ (State.recovered s a ahead) := by
  unfold recovered
  try dsimp only
  (repeat' split) <;> (repeat' first
    | with_reducible assumption | with_reducible apply truncateRecovered_leads | with_reducible apply recoveryRecovered_leads
    | with_reducible apply scanRecovered_leads | with_reducible apply fillRecovered_leads | with_reducible apply readRecovered_leads
    | with_reducible apply headerRecovered_leads | with_reducible apply setAcc_leads
    | with_reducible apply countLane_leads | with_reducible apply Leads.setMsc | exact Or.inl rfl | rfl | exact SlotsKept.refl _
    | exact Slot.Keeps.same rfl rfl | exact Slot.Keeps.free _ | exact Slot.Keeps.setPin .. | exact Or.inr (Or.inl rfl) | exact fun _ hk => hk
    | exact Or.inl Nat.le.refl | exact Or.inl (List.length_set ..) | exact Or.inl (List.length_map ..) | exact Or.inl (Nat.zero_le _)
    | exact Or.inr (Nat.zero_le _) | exact Or.inr rfl | exact Or.inl (List.length_mapIdx ..) | decide | intro _)

theorem unrecoverable_leads {s₀ s : State} (h : Leads s₀ s) (a : Acc) : Leads s₀ (State.unrecoverable s a) := by
  unfold unrecoverable
  try dsimp only
  (repeat' split) <;> (repeat' first
    | with_reducible assumption | with_reducible apply failScan_leads | with_reducible apply endTruncate_leads
    | with_reducible apply endStopped_leads | with_reducible apply endScan_leads | with_reducible apply freeCopySlot_leads
    | with_reducible apply stopFill_leads | with_reducible apply endRead_leads | with_reducible apply setAcc_leads
    | with_reducible apply endPartition_leads | with_reducible apply endTurn_leads | with_reducible apply countLane_leads | intro _)

theorem retry_leads {s₀ s : State} (h : Leads s₀ s) (a : Acc) : Leads s₀ (State.retry s a) := by
  unfold retry
  try dsimp only
  (repeat' split) <;> (repeat' first
    | with_reducible assumption | with_reducible apply setAcc_leads | with_reducible apply relocate_leads | with_reducible apply countLane_leads
    | intro _)

theorem passEnds_leads {s₀ s : State} (h : Leads s₀ s) (a : Acc) : Leads s₀ (State.passEnds s a) := by
  unfold passEnds
  try dsimp only
  (repeat' split) <;> (repeat' first
    | with_reducible assumption | with_reducible apply retry_leads | with_reducible apply unrecoverable_leads
    | with_reducible apply abandonScan_leads | intro _)

theorem passOver_leads {s₀ s : State} (h : Leads s₀ s) (a : Acc) : Leads s₀ (State.passOver s a) := by
  unfold passOver
  try dsimp only
  (repeat' split) <;> (repeat' first
    | with_reducible assumption | with_reducible apply freeCopySlot_leads | with_reducible apply fillOn_leads | with_reducible apply setAcc_leads
    | with_reducible apply streamFor_leads | with_reducible apply giveBack_leads | intro _)

theorem copyPassed_leads {s₀ s : State} (h : Leads s₀ s) (a : Acc) (readable : StripeSet) (named : Bool) (c : Segment) : Leads s₀ (State.copyPassed s a readable named c) := by
  unfold copyPassed
  try dsimp only
  (repeat' split) <;> (repeat' first
    | with_reducible assumption | with_reducible apply passOver_leads | with_reducible apply endStopped_leads | with_reducible apply recovered_leads | with_reducible apply abandonScan_leads
    | with_reducible apply setAcc_leads | with_reducible apply streamFor_leads | with_reducible apply headTo_leads | intro _)

theorem aheadTo_leads {s₀ s : State} (h : Leads s₀ s) (a : Acc) (o : Nat) : Leads s₀ (State.aheadTo s a o) := by
  unfold aheadTo
  try dsimp only
  (repeat' split) <;> (repeat' first
    | with_reducible assumption | with_reducible apply setAcc_leads | with_reducible apply headTo_leads | intro _)

theorem rewritePassed_leads {s₀ s : State} (h : Leads s₀ s) (a : Acc) (o : Nat) (segment : Nat) (attempt : Nat) (stripe : Nat) : Leads s₀ (State.rewritePassed s a o segment attempt stripe) := by
  unfold rewritePassed
  try dsimp only
  (repeat' split) <;> (repeat' first
    | with_reducible assumption | with_reducible apply aheadTo_leads | with_reducible apply passEnds_leads | with_reducible apply recovered_leads
    | with_reducible apply setAcc_leads | with_reducible apply headTo_leads | intro _)

theorem headerPassed_leads {s₀ s : State} (hs : Leads s₀ s) (a : Acc) (o : Nat) (h : SegHeader) (l : List Entry) : Leads s₀ (State.headerPassed s a o h l) := by
  unfold headerPassed
  try dsimp only
  (repeat' split) <;> (repeat' first
    | with_reducible assumption | with_reducible apply aheadTo_leads | with_reducible apply passEnds_leads | with_reducible apply startCopy_leads | with_reducible apply abandonScan_leads
    | with_reducible apply setLandmark_leads | with_reducible apply headTo_leads | intro _)

theorem seekEnds_leads {s₀ s : State} (h : Leads s₀ s) : Leads s₀ (State.seekEnds s) := by
  unfold seekEnds
  try dsimp only
  (repeat' split) <;> (repeat' first
    | with_reducible assumption | with_reducible apply failScan_leads | with_reducible apply stopFill_leads | intro _)

theorem seekHeader_leads {s₀ s : State} (h : Leads s₀ s) (o : Nat) (number : Nat) (attempt : Option Nat) : Leads s₀ (State.seekHeader s o number attempt) := by
  unfold seekHeader
  try dsimp only
  (repeat' split) <;> (repeat' first
    | with_reducible assumption | with_reducible apply fillCopy_leads | with_reducible apply scanCopy_leads | with_reducible apply readCopy_leads
    | with_reducible apply endScan_leads | with_reducible apply endTurn_leads | intro _)

end State
end Sys2Proof.Machine
end

