-- ==== Sys2Proof/Laws/LeadsLoading.lean ====
section
/-! SUPPORT. One lemma for each shared operation of the load machine, the tag reader and the turns (spec/02, spec/04, spec/09): it leads from a state to one that `State.Leads` allows. -/

namespace Sys2Proof.Machine
namespace State

theorem enter_leads {s₀ s : State} (h : Leads s₀ s) (x : LoadState) : Leads s₀ (State.enter s x) := by
  unfold enter
  try dsimp only
  (repeat' split) <;> (repeat' first
    | with_reducible assumption | with_reducible apply Leads.setLsq | exact Or.inl rfl | rfl | exact SlotsKept.refl _ | exact Slot.Keeps.same rfl rfl
    | exact Slot.Keeps.free _ | exact Slot.Keeps.setPin .. | exact Or.inr (Or.inl rfl) | exact fun _ hk => hk | exact Or.inl Nat.le.refl
    | exact Or.inl (List.length_set ..) | exact Or.inl (List.length_map ..) | exact Or.inl (Nat.zero_le _) | exact Or.inr (Nat.zero_le _)
    | exact Or.inr rfl | exact Or.inl (List.length_mapIdx ..) | decide | intro _)

theorem stopInterval_leads {s₀ s : State} (h : Leads s₀ s) : Leads s₀ (State.stopInterval s) := by
  unfold stopInterval
  try dsimp only
  (repeat' split) <;> (repeat' first
    | with_reducible assumption | with_reducible apply Leads.setDtc | exact Or.inl rfl | rfl | exact SlotsKept.refl _ | exact Slot.Keeps.same rfl rfl
    | exact Slot.Keeps.free _ | exact Slot.Keeps.setPin .. | exact Or.inr (Or.inl rfl) | exact fun _ hk => hk | exact Or.inl Nat.le.refl
    | exact Or.inl (List.length_set ..) | exact Or.inl (List.length_map ..) | exact Or.inl (Nat.zero_le _) | exact Or.inr (Nat.zero_le _)
    | exact Or.inr rfl | exact Or.inl (List.length_mapIdx ..) | decide | intro _)

theorem startInterval_leads {s₀ s : State} (h : Leads s₀ s) : Leads s₀ (State.startInterval s) := by
  unfold startInterval
  try dsimp only
  (repeat' split) <;> (repeat' first
    | with_reducible assumption | with_reducible apply Leads.setDtc | exact Or.inl rfl | rfl | exact SlotsKept.refl _ | exact Slot.Keeps.same rfl rfl
    | exact Slot.Keeps.free _ | exact Slot.Keeps.setPin .. | exact Or.inr (Or.inl rfl) | exact fun _ hk => hk | exact Or.inl Nat.le.refl
    | exact Or.inl (List.length_set ..) | exact Or.inl (List.length_map ..) | exact Or.inl (Nat.zero_le _) | exact Or.inr (Nat.zero_le _)
    | exact Or.inr rfl | exact Or.inl (List.length_mapIdx ..) | decide | intro _)

theorem discardCopy_leads {s₀ s : State} (h : Leads s₀ s) : Leads s₀ (State.discardCopy s) := by
  unfold discardCopy
  try dsimp only
  (repeat' split) <;> (repeat' first
    | with_reducible assumption | with_reducible apply Leads.setDtc | exact Or.inl rfl | rfl | exact SlotsKept.refl _ | exact Slot.Keeps.same rfl rfl
    | exact Slot.Keeps.free _ | exact Slot.Keeps.setPin .. | exact Or.inr (Or.inl rfl) | exact fun _ hk => hk | exact Or.inl Nat.le.refl
    | exact Or.inl (List.length_set ..) | exact Or.inl (List.length_map ..) | exact Or.inl (Nat.zero_le _) | exact Or.inr (Nat.zero_le _)
    | exact Or.inr rfl | exact Or.inl (List.length_mapIdx ..) | decide | intro _)

theorem loseContexts_leads {s₀ s : State} (h : Leads s₀ s) : Leads s₀ (State.loseContexts s) := by
  unfold loseContexts
  try dsimp only
  (repeat' split) <;> (repeat' first
    | with_reducible assumption | with_reducible apply Leads.setMsc | exact Or.inl rfl | rfl | exact SlotsKept.refl _ | exact Slot.Keeps.same rfl rfl
    | exact Slot.Keeps.free _ | exact Slot.Keeps.setPin .. | exact Or.inr (Or.inl rfl) | exact fun _ hk => hk | exact Or.inl Nat.le.refl
    | exact Or.inl (List.length_set ..) | exact Or.inl (List.length_map ..) | exact Or.inl (Nat.zero_le _) | exact Or.inr (Nat.zero_le _)
    | exact Or.inr rfl | exact Or.inl (List.length_mapIdx ..) | decide | intro _)

theorem enterThreading_leads {s₀ s : State} (h : Leads s₀ s) : Leads s₀ (State.enterThreading s) := by
  unfold enterThreading
  try dsimp only
  (repeat' split) <;> (repeat' first
    | with_reducible assumption | with_reducible apply Leads.setLsq | exact Or.inl rfl | rfl | exact SlotsKept.refl _ | exact Slot.Keeps.same rfl rfl
    | exact Slot.Keeps.free _ | exact Slot.Keeps.setPin .. | exact Or.inr (Or.inl rfl) | exact fun _ hk => hk | exact Or.inl Nat.le.refl
    | exact Or.inl (List.length_set ..) | exact Or.inl (List.length_map ..) | exact Or.inl (Nat.zero_le _) | exact Or.inr (Nat.zero_le _)
    | exact Or.inr rfl | exact Or.inl (List.length_mapIdx ..) | decide | intro _)

theorem enterRecovering_leads {s₀ s : State} (h : Leads s₀ s) : Leads s₀ (State.enterRecovering s) := by
  unfold enterRecovering
  try dsimp only
  (repeat' split) <;> (repeat' first
    | with_reducible assumption | with_reducible apply stopInterval_leads | with_reducible apply enter_leads | with_reducible apply Leads.setMsc
    | exact Or.inl rfl | rfl | exact SlotsKept.refl _ | exact Slot.Keeps.same rfl rfl | exact Slot.Keeps.free _ | exact Slot.Keeps.setPin ..
    | exact Or.inr (Or.inl rfl) | exact fun _ hk => hk | exact Or.inl Nat.le.refl | exact Or.inl (List.length_set ..)
    | exact Or.inl (List.length_map ..) | exact Or.inl (Nat.zero_le _) | exact Or.inr (Nat.zero_le _) | exact Or.inr rfl
    | exact Or.inl (List.length_mapIdx ..) | decide | intro _)

theorem readyAfterLoad_leads {s₀ s : State} (h : Leads s₀ s) : Leads s₀ (State.readyAfterLoad s) := by
  unfold readyAfterLoad
  try dsimp only
  (repeat' split) <;> (repeat' first
    | with_reducible assumption | with_reducible apply endLibrary_leads | with_reducible apply addAttention_leads | with_reducible apply Leads.setLsq
    | with_reducible apply Leads.setMsc | exact Or.inl rfl | rfl | exact SlotsKept.refl _ | exact Slot.Keeps.same rfl rfl | exact Slot.Keeps.free _
    | exact Slot.Keeps.setPin .. | exact Or.inr (Or.inl rfl) | exact fun _ hk => hk | exact Or.inl Nat.le.refl | exact Or.inl (List.length_set ..)
    | exact Or.inl (List.length_map ..) | exact Or.inl (Nat.zero_le _) | exact Or.inr (Nat.zero_le _) | exact Or.inr rfl
    | exact Or.inl (List.length_mapIdx ..) | decide | intro _)

theorem readyAfterReset_leads {s₀ s : State} (h : Leads s₀ s) : Leads s₀ (State.readyAfterReset s) := by
  unfold readyAfterReset
  try dsimp only
  (repeat' split) <;> (repeat' first
    | with_reducible assumption | with_reducible apply addReason_leads | with_reducible apply Leads.setLsq | exact Or.inl rfl | rfl
    | exact SlotsKept.refl _ | exact Slot.Keeps.same rfl rfl | exact Slot.Keeps.free _ | exact Slot.Keeps.setPin .. | exact Or.inr (Or.inl rfl)
    | exact fun _ hk => hk | exact Or.inl Nat.le.refl | exact Or.inl (List.length_set ..) | exact Or.inl (List.length_map ..)
    | exact Or.inl (Nat.zero_le _) | exact Or.inr (Nat.zero_le _) | exact Or.inr rfl | exact Or.inl (List.length_mapIdx ..) | decide | intro _)

theorem enterReady_leads {s₀ s : State} (h : Leads s₀ s) : Leads s₀ (State.enterReady s) := by
  unfold enterReady
  try dsimp only
  (repeat' split) <;> (repeat' first
    | with_reducible assumption | with_reducible apply readyAfterReset_leads | with_reducible apply readyAfterLoad_leads
    | with_reducible apply startInterval_leads | intro _)

theorem wakeToReady_leads {s₀ s : State} (h : Leads s₀ s) : Leads s₀ (State.wakeToReady s) := by
  unfold wakeToReady
  try dsimp only
  (repeat' split) <;> (repeat' first
    | with_reducible assumption | with_reducible apply startInterval_leads | with_reducible apply enter_leads | intro _)

theorem enterStandby_leads {s₀ s : State} (h : Leads s₀ s) : Leads s₀ (State.enterStandby s) := by
  unfold enterStandby
  try dsimp only
  (repeat' split) <;> (repeat' first
    | with_reducible assumption | with_reducible apply enter_leads | with_reducible apply finishRecord_leads | with_reducible apply Leads.setMsc
    | with_reducible apply Leads.copyMeter | exact Or.inl rfl | rfl | exact SlotsKept.refl _ | exact Slot.Keeps.same rfl rfl
    | exact Slot.Keeps.free _ | exact Slot.Keeps.setPin .. | exact Or.inr (Or.inl rfl) | exact fun _ hk => hk | exact Or.inl Nat.le.refl
    | exact Or.inl (List.length_set ..) | exact Or.inl (List.length_map ..) | exact Or.inl (Nat.zero_le _) | exact Or.inr (Nat.zero_le _)
    | exact Or.inr rfl | exact Or.inl (List.length_mapIdx ..) | decide | intro _)

theorem enterWaking_leads {s₀ s : State} (h : Leads s₀ s) : Leads s₀ (State.enterWaking s) := by
  unfold enterWaking
  try dsimp only
  (repeat' split) <;> (repeat' first
    | with_reducible assumption | with_reducible apply enter_leads | intro _)

theorem endWaitingWrite_leads {s₀ s : State} (h : Leads s₀ s) (r : Part) : Leads s₀ (State.endWaitingWrite s r) := by
  unfold endWaitingWrite
  try dsimp only
  (repeat' split) <;> (repeat' first
    | with_reducible assumption | with_reducible apply withdrawRequests_leads | with_reducible apply setIntake_leads
    | with_reducible apply endCommand_leads | intro _)

theorem drainSession_leads {s₀ s : State} (h : Leads s₀ s) (r : Part) : Leads s₀ (State.drainSession s r) := by
  unfold drainSession
  try dsimp only
  (repeat' split) <;> (repeat' first
    | with_reducible assumption | with_reducible apply endWaitingWrite_leads | with_reducible apply requestClose_leads | intro _)

theorem stopSeekingFill_leads {s₀ s : State} (h : Leads s₀ s) : Leads s₀ (State.stopSeekingFill s) := by
  unfold stopSeekingFill
  try dsimp only
  (repeat' split) <;> (repeat' first
    | with_reducible assumption | with_reducible apply stopFill_leads | with_reducible apply haltTransport_leads | intro _)

theorem enterDraining_leads {s₀ s : State} (h : Leads s₀ s) : Leads s₀ (State.enterDraining s) := by
  unfold enterDraining
  try dsimp only
  (repeat' split) <;> (repeat' first
    | with_reducible assumption | with_reducible apply stopSeekingFill_leads | with_reducible apply drainSession_leads
    | with_reducible apply enter_leads | with_reducible apply pendScan_leads | with_reducible apply Leads.foldl | exact Or.inl rfl | rfl
    | exact SlotsKept.refl _ | exact Slot.Keeps.same rfl rfl | exact Slot.Keeps.free _ | exact Slot.Keeps.setPin .. | exact Or.inr (Or.inl rfl)
    | exact fun _ hk => hk | exact Or.inl Nat.le.refl | exact Or.inl (List.length_set ..) | exact Or.inl (List.length_map ..)
    | exact Or.inl (Nat.zero_le _) | exact Or.inr (Nat.zero_le _) | exact Or.inr rfl | exact Or.inl (List.length_mapIdx ..) | decide | intro _)

theorem enterRewinding_leads {s₀ s : State} (h : Leads s₀ s) : Leads s₀ (State.enterRewinding s) := by
  unfold enterRewinding
  try dsimp only
  (repeat' split) <;> (repeat' first
    | with_reducible assumption | with_reducible apply enter_leads | with_reducible apply Leads.setMsc | exact Or.inl rfl | rfl
    | exact SlotsKept.refl _ | exact Slot.Keeps.same rfl rfl | exact Slot.Keeps.free _ | exact Slot.Keeps.setPin .. | exact Or.inr (Or.inl rfl)
    | exact fun _ hk => hk | exact Or.inl Nat.le.refl | exact Or.inl (List.length_set ..) | exact Or.inl (List.length_map ..)
    | exact Or.inl (Nat.zero_le _) | exact Or.inr (Nat.zero_le _) | exact Or.inr rfl | exact Or.inl (List.length_mapIdx ..) | decide | intro _)

theorem enterClosing_leads {s₀ s : State} (h : Leads s₀ s) : Leads s₀ (State.enterClosing s) := by
  unfold enterClosing
  try dsimp only
  (repeat' split) <;> (repeat' first
    | with_reducible assumption | with_reducible apply stopInterval_leads | with_reducible apply enter_leads
    | with_reducible apply requestCheckpoint_leads | intro _)

theorem dropFailed_leads {s₀ s : State} (h : Leads s₀ s) (r : Part) : Leads s₀ (State.dropFailed s r) := by
  unfold dropFailed
  try dsimp only
  (repeat' split) <;> (repeat' first
    | with_reducible assumption | with_reducible apply rowToNone_leads | with_reducible apply addFault_leads | intro _)

theorem enterUnthreading_leads {s₀ s : State} (h : Leads s₀ s) (destination : Destination) : Leads s₀ (State.enterUnthreading s destination) := by
  unfold enterUnthreading
  try dsimp only
  (repeat' split) <;> (repeat' first
    | with_reducible assumption | with_reducible apply dropFailed_leads | with_reducible apply loseContexts_leads
    | with_reducible apply stopInterval_leads | with_reducible apply invalidateSlots_leads | with_reducible apply Leads.setLsq
    | with_reducible apply Leads.foldl | exact Or.inl rfl | rfl | exact SlotsKept.refl _ | exact Slot.Keeps.same rfl rfl | exact Slot.Keeps.free _
    | exact Slot.Keeps.setPin .. | exact Or.inr (Or.inl rfl) | exact fun _ hk => hk | exact Or.inl Nat.le.refl | exact Or.inl (List.length_set ..)
    | exact Or.inl (List.length_map ..) | exact Or.inl (Nat.zero_le _) | exact Or.inr (Nat.zero_le _) | exact Or.inr rfl
    | exact Or.inl (List.length_mapIdx ..) | decide | intro _)

theorem forcedPath_leads {s₀ s : State} (h : Leads s₀ s) : Leads s₀ (State.forcedPath s) := by
  unfold forcedPath
  try dsimp only
  (repeat' split) <;> (repeat' first
    | with_reducible assumption | with_reducible apply enterUnthreading_leads | with_reducible apply enterClosing_leads
    | with_reducible apply Leads.setLsq | exact Or.inl rfl | rfl | exact SlotsKept.refl _ | exact Slot.Keeps.same rfl rfl | exact Slot.Keeps.free _
    | exact Slot.Keeps.setPin .. | exact Or.inr (Or.inl rfl) | exact fun _ hk => hk | exact Or.inl Nat.le.refl | exact Or.inl (List.length_set ..)
    | exact Or.inl (List.length_map ..) | exact Or.inl (Nat.zero_le _) | exact Or.inr (Nat.zero_le _) | exact Or.inr rfl
    | exact Or.inl (List.length_mapIdx ..) | decide | intro _)

theorem endUnloadRequest_leads {s₀ s : State} (h : Leads s₀ s) (result : HostResult) (p : Port) : Leads s₀ (State.endUnloadRequest s result p) := by
  unfold endUnloadRequest
  try dsimp only
  (repeat' split) <;> (repeat' first
    | with_reducible assumption | with_reducible apply endCommand_leads | intro _)

theorem endLoad_leads {s₀ s : State} (h : Leads s₀ s) (result : LibResult) (detail : LibDetail) : Leads s₀ (State.endLoad s result detail) := by
  unfold endLoad
  try dsimp only
  (repeat' split) <;> (repeat' first
    | with_reducible assumption | with_reducible apply endLibrary_leads | with_reducible apply Leads.setLsq | exact Or.inl rfl | rfl
    | exact SlotsKept.refl _ | exact Slot.Keeps.same rfl rfl | exact Slot.Keeps.free _ | exact Slot.Keeps.setPin .. | exact Or.inr (Or.inl rfl)
    | exact fun _ hk => hk | exact Or.inl Nat.le.refl | exact Or.inl (List.length_set ..) | exact Or.inl (List.length_map ..)
    | exact Or.inl (Nat.zero_le _) | exact Or.inr (Nat.zero_le _) | exact Or.inr rfl | exact Or.inl (List.length_mapIdx ..) | decide | intro _)

theorem endThreadedLoad_leads {s₀ s : State} (h : Leads s₀ s) : Leads s₀ (State.endThreadedLoad s) := by
  unfold endThreadedLoad
  try dsimp only
  (repeat' split) <;> (repeat' first
    | with_reducible assumption | with_reducible apply endLoad_leads | intro _)

theorem ejectWith_leads {s₀ s : State} (h : Leads s₀ s) (keepHistory : Bool) : Leads s₀ (State.ejectWith s keepHistory) := by
  unfold ejectWith
  try dsimp only
  (repeat' split) <;> (repeat' first
    | with_reducible assumption | with_reducible apply endThreadedLoad_leads | with_reducible apply endUnloadRequest_leads
    | with_reducible apply discardCopy_leads | with_reducible apply enter_leads | with_reducible apply endLibrary_leads
    | with_reducible apply addReason_leads | with_reducible apply Leads.setLsq | with_reducible apply Leads.setHcm
    | with_reducible apply Leads.copyMeter | exact Or.inl rfl | rfl | exact SlotsKept.refl _ | exact Slot.Keeps.same rfl rfl
    | exact Slot.Keeps.free _ | exact Slot.Keeps.setPin .. | exact Or.inr (Or.inl rfl) | exact fun _ hk => hk | exact Or.inl Nat.le.refl
    | exact Or.inl (List.length_set ..) | exact Or.inl (List.length_map ..) | exact Or.inl (Nat.zero_le _) | exact Or.inr (Nat.zero_le _)
    | exact Or.inr rfl | exact Or.inl (List.length_mapIdx ..) | decide | intro _)

theorem enterEjected_leads {s₀ s : State} (h : Leads s₀ s) : Leads s₀ (State.enterEjected s) := ejectWith_leads h false

theorem leaderOut_leads {s₀ s : State} (h : Leads s₀ s) : Leads s₀ s.leaderOut := by
  have h1 : Leads s₀ (if s.lsq.forced then s.reportTravel s.msc.head.coord else s) := by
    split
    · exact reportTravel_leads h _
    · exact h
  unfold leaderOut
  dsimp only
  revert h1
  generalize (if s.lsq.forced then s.reportTravel s.msc.head.coord else s) = t
  intro h1
  split
  · exact enterEjected_leads (finishRecord_leads (Leads.setMsc _ _ h1 (Or.inl rfl)))
  · exact Leads.setLsq _ _ (Leads.setMsc _ _ h1 (Or.inl rfl)) (Or.inl rfl)

theorem faultTransport_leads {s₀ s : State} (h : Leads s₀ s) (p : Port) : Leads s₀ (State.faultTransport s p) := by
  unfold faultTransport
  try dsimp only
  (repeat' split) <;> (repeat' first
    | with_reducible assumption | with_reducible apply dropCopy_leads | with_reducible apply setScan_leads | with_reducible apply setRead_leads
    | with_reducible apply withdrawRequests_leads | with_reducible apply dropExpansions_leads | with_reducible apply endCommand_leads
    | with_reducible apply dropPins_leads | intro _)

theorem loseTransport_leads {s₀ s : State} (h : Leads s₀ s) : Leads s₀ (State.loseTransport s) := by
  unfold loseTransport
  try dsimp only
  (repeat' split) <;> (repeat' first
    | with_reducible assumption | with_reducible apply faultTransport_leads | with_reducible apply idleRead_leads | with_reducible apply setAcc_leads
    | with_reducible apply setFill_leads | with_reducible apply haltTransport_leads | with_reducible apply loseSession_leads
    | with_reducible apply endTurn_leads | with_reducible apply freeFilling_leads | with_reducible apply abandonCleaning_leads
    | with_reducible apply finishRecord_leads | with_reducible apply Leads.setMsc | with_reducible apply Leads.setDtc
    | with_reducible apply Leads.foldl | exact Or.inl rfl | rfl | exact SlotsKept.refl _ | exact Slot.Keeps.same rfl rfl | exact Slot.Keeps.free _
    | exact Slot.Keeps.setPin .. | exact Or.inr (Or.inl rfl) | exact fun _ hk => hk | exact Or.inl Nat.le.refl | exact Or.inl (List.length_set ..)
    | exact Or.inl (List.length_map ..) | exact Or.inl (Nat.zero_le _) | exact Or.inr (Nat.zero_le _) | exact Or.inr rfl
    | exact Or.inl (List.length_mapIdx ..) | decide | intro _)

theorem emergencyStop_leads {s₀ s : State} (h : Leads s₀ s) : Leads s₀ (State.emergencyStop s) := by
  unfold emergencyStop
  try dsimp only
  (repeat' split) <;> (repeat' first
    | with_reducible assumption | with_reducible apply loseTransport_leads | with_reducible apply endLoad_leads
    | with_reducible apply forcedPath_leads | with_reducible apply enter_leads | with_reducible apply addReason_leads
    | with_reducible apply Leads.setLsq | with_reducible apply Leads.setDtc | exact Or.inl rfl | rfl | exact SlotsKept.refl _
    | exact Slot.Keeps.same rfl rfl | exact Slot.Keeps.free _ | exact Slot.Keeps.setPin .. | exact Or.inr (Or.inl rfl) | exact fun _ hk => hk
    | exact Or.inl Nat.le.refl | exact Or.inl (List.length_set ..) | exact Or.inl (List.length_map ..) | exact Or.inl (Nat.zero_le _)
    | exact Or.inr (Nat.zero_le _) | exact Or.inr rfl | exact Or.inl (List.length_mapIdx ..) | decide | intro _)

theorem dropTransaction_leads {s₀ s : State} (h : Leads s₀ s) : Leads s₀ (State.dropTransaction s) := by
  unfold dropTransaction
  try dsimp only
  (repeat' split) <;> (repeat' first
    | with_reducible assumption | with_reducible apply Leads.setDtc | with_reducible apply Leads.setLp | exact Or.inl rfl | rfl
    | exact SlotsKept.refl _ | exact Slot.Keeps.same rfl rfl | exact Slot.Keeps.free _ | exact Slot.Keeps.setPin .. | exact Or.inr (Or.inl rfl)
    | exact fun _ hk => hk | exact Or.inl Nat.le.refl | exact Or.inl (List.length_set ..) | exact Or.inl (List.length_map ..)
    | exact Or.inl (Nat.zero_le _) | exact Or.inr (Nat.zero_le _) | exact Or.inr rfl | exact Or.inl (List.length_mapIdx ..) | decide | intro _)

theorem pullCartridge_leads {s₀ s : State} (h : Leads s₀ s) : Leads s₀ s.pullCartridge := by
  unfold pullCartridge
  dsimp only
  refine addReason_leads (Leads.setLsq _ _ (endUnloadRequest_leads (endUnloadRequest_leads (endLibrary_leads (endLibrary_leads
    (discardCopy_leads (Leads.setDtc _ _ (dropTransaction_leads (invalidateSlots_leads (loseContexts_leads
      (Leads.foldl _ (fun _ r hs => dropFailed_leads hs r) _ _ (loseTransport_leads h))) _)))) _ _ _) _ _ _) _ _) _ _) (Or.inr (Nat.zero_le 2))) _

theorem resetDevice_leads {s₀ s : State} (h : Leads s₀ s) (cause : Causes) : Leads s₀ (s.resetDevice cause) := by
  unfold resetDevice
  dsimp only
  have h0 := haltTransport_leads h
  have h1 := Leads.setHcm s.haltTransport { s.haltTransport.hcm with openRecord := none, run := .none } h0 rfl rfl rfl (Or.inl Nat.le.refl)
  generalize s.haltTransport.setHcm _ = t at h1 ⊢
  have h2 : ∀ x : Msc, x.burst = 0 → Leads s₀ ((t.setMsc x).setPorts { a := resetPortState (t.setMsc x).ports.a, b := resetPortState (t.setMsc x).ports.b }) := fun x hx =>
    Leads.setPort _ .b (resetPortState (t.setMsc x).ports.b)
      (Leads.setPort (t.setMsc x) .a (resetPortState (t.setMsc x).ports.a) (Leads.setMsc t x h1 (Or.inr (hx ▸ Nat.zero_le 8))) rfl (Or.inr (Nat.zero_le 4)))
      rfl (Or.inr (Nat.zero_le 4))
  (repeat' first
    | with_reducible apply Leads.addCause | with_reducible apply addReason_leads | with_reducible apply Leads.setLp
    | with_reducible apply Leads.setLsq | with_reducible apply Leads.setDtc | with_reducible apply Leads.setWvu
    | with_reducible apply Leads.setRdu | with_reducible apply Leads.setSbm | with_reducible apply Leads.setRcx
    | with_reducible apply Leads.clearRows | with_reducible apply h2 | exact SlotsKept.reset _ | exact Or.inr rfl | exact Or.inr (Nat.zero_le _) | rfl | exact fun _ hk => hk
    | exact Or.inr (resetLoad_retries _))

theorem startTransaction_leads {s₀ s : State} (h : Leads s₀ s) (kind : TagKind) (snapshot : Option Directory) (waiters : List Part) : Leads s₀ (State.startTransaction s kind snapshot waiters) := by
  unfold startTransaction
  try dsimp only
  (repeat' split) <;> (repeat' first
    | with_reducible assumption | with_reducible apply Leads.setDtc | exact Or.inl rfl | rfl | exact SlotsKept.refl _ | exact Slot.Keeps.same rfl rfl
    | exact Slot.Keeps.free _ | exact Slot.Keeps.setPin .. | exact Or.inr (Or.inl rfl) | exact fun _ hk => hk | exact Or.inl Nat.le.refl
    | exact Or.inl (List.length_set ..) | exact Or.inl (List.length_map ..) | exact Or.inl (Nat.zero_le _) | exact Or.inr (Nat.zero_le _)
    | exact Or.inr rfl | exact Or.inl (List.length_mapIdx ..) | decide | intro _)

theorem staleDone_leads {s₀ s : State} (h : Leads s₀ s) (waiters : List Part) (clearBehind : Bool) : Leads s₀ (State.staleDone s waiters clearBehind) := by
  unfold staleDone
  try dsimp only
  (repeat' split) <;> (repeat' first
    | with_reducible assumption | with_reducible apply Leads.setDtc | exact Or.inl rfl | rfl | exact SlotsKept.refl _ | exact Slot.Keeps.same rfl rfl
    | exact Slot.Keeps.free _ | exact Slot.Keeps.setPin .. | exact Or.inr (Or.inl rfl) | exact fun _ hk => hk | exact Or.inl Nat.le.refl
    | exact Or.inl (List.length_set ..) | exact Or.inl (List.length_map ..) | exact Or.inl (Nat.zero_le _) | exact Or.inr (Nat.zero_le _)
    | exact Or.inr rfl | exact Or.inl (List.length_mapIdx ..) | decide | intro _)

theorem grantStale_leads {s₀ s : State} (h : Leads s₀ s) : Leads s₀ (State.grantStale s) := by
  unfold grantStale
  try dsimp only
  (repeat' split) <;> (repeat' first
    | with_reducible assumption | with_reducible apply staleDone_leads | with_reducible apply startTransaction_leads
    | with_reducible apply Leads.setDtc | exact Or.inl rfl | rfl | exact SlotsKept.refl _ | exact Slot.Keeps.same rfl rfl | exact Slot.Keeps.free _
    | exact Slot.Keeps.setPin .. | exact Or.inr (Or.inl rfl) | exact fun _ hk => hk | exact Or.inl Nat.le.refl | exact Or.inl (List.length_set ..)
    | exact Or.inl (List.length_map ..) | exact Or.inl (Nat.zero_le _) | exact Or.inr (Nat.zero_le _) | exact Or.inr rfl
    | exact Or.inl (List.length_mapIdx ..) | decide | intro _)

theorem grantCheckpoint_leads {s₀ s : State} (h : Leads s₀ s) (c : PendingCheckpoint) : Leads s₀ (State.grantCheckpoint s c) := by
  unfold grantCheckpoint
  try dsimp only
  (repeat' split) <;> (repeat' first
    | with_reducible assumption | with_reducible apply startTransaction_leads | with_reducible apply Leads.setDtc | exact Or.inl rfl | rfl
    | exact SlotsKept.refl _ | exact Slot.Keeps.same rfl rfl | exact Slot.Keeps.free _ | exact Slot.Keeps.setPin .. | exact Or.inr (Or.inl rfl)
    | exact fun _ hk => hk | exact Or.inl Nat.le.refl | exact Or.inl (List.length_set ..) | exact Or.inl (List.length_map ..)
    | exact Or.inl (Nat.zero_le _) | exact Or.inr (Nat.zero_le _) | exact Or.inr rfl | exact Or.inl (List.length_mapIdx ..) | decide | intro _)

theorem grantAccess_leads {s₀ s : State} (h : Leads s₀ s) (a : PendingAccess) : Leads s₀ (State.grantAccess s a) := by
  unfold grantAccess
  try dsimp only
  (repeat' split) <;> (repeat' first
    | with_reducible assumption | with_reducible apply startTransaction_leads | with_reducible apply Leads.setDtc | exact Or.inl rfl | rfl
    | exact SlotsKept.refl _ | exact Slot.Keeps.same rfl rfl | exact Slot.Keeps.free _ | exact Slot.Keeps.setPin .. | exact Or.inr (Or.inl rfl)
    | exact fun _ hk => hk | exact Or.inl Nat.le.refl | exact Or.inl (List.length_set ..) | exact Or.inl (List.length_map ..)
    | exact Or.inl (Nat.zero_le _) | exact Or.inr (Nat.zero_le _) | exact Or.inr rfl | exact Or.inl (List.length_mapIdx ..) | decide | intro _)

theorem grantReader_leads {s₀ s : State} (h : Leads s₀ s) : Leads s₀ (State.grantReader s) := by
  unfold grantReader
  try dsimp only
  (repeat' split) <;> (repeat' first
    | with_reducible assumption | with_reducible apply grantAccess_leads | with_reducible apply grantCheckpoint_leads
    | with_reducible apply grantStale_leads | with_reducible apply startTransaction_leads | with_reducible apply Leads.setDtc | exact Or.inl rfl
    | rfl | exact SlotsKept.refl _ | exact Slot.Keeps.same rfl rfl | exact Slot.Keeps.free _ | exact Slot.Keeps.setPin .. | exact Or.inr (Or.inl rfl)
    | exact fun _ hk => hk | exact Or.inl Nat.le.refl | exact Or.inl (List.length_set ..) | exact Or.inl (List.length_map ..)
    | exact Or.inl (Nat.zero_le _) | exact Or.inr (Nat.zero_le _) | exact Or.inr rfl | exact Or.inl (List.length_mapIdx ..) | decide | intro _)

theorem loadEjects_leads {s₀ s : State} (h : Leads s₀ s) (result : LibResult) (detail : LibDetail) : Leads s₀ (State.loadEjects s result detail) := by
  unfold loadEjects
  try dsimp only
  (repeat' split) <;> (repeat' first
    | with_reducible assumption | with_reducible apply enterEjected_leads | with_reducible apply endLoad_leads | intro _)

theorem dataLoaded_leads {s₀ s : State} (h : Leads s₀ s) (t : Tag) : Leads s₀ (State.dataLoaded s t) := by
  unfold dataLoaded
  try dsimp only
  (repeat' split) <;> (repeat' first
    | with_reducible assumption | with_reducible apply enterThreading_leads | with_reducible apply Leads.setLsq | with_reducible apply Leads.setDtc
    | exact Or.inl rfl | rfl | exact SlotsKept.refl _ | exact Slot.Keeps.same rfl rfl | exact Slot.Keeps.free _ | exact Slot.Keeps.setPin ..
    | exact Or.inr (Or.inl rfl) | exact fun _ hk => hk | exact Or.inl Nat.le.refl | exact Or.inl (List.length_set ..)
    | exact Or.inl (List.length_map ..) | exact Or.inl (Nat.zero_le _) | exact Or.inr (Nat.zero_le _) | exact Or.inr rfl
    | exact Or.inl (List.length_mapIdx ..) | decide | intro _)

theorem expiredEjects_leads {s₀ s : State} (h : Leads s₀ s) : Leads s₀ (State.expiredEjects s) := endLoad_leads (ejectWith_leads h true) _ _

theorem cleaningLoaded_leads {s₀ s : State} (h : Leads s₀ s) (t : Tag) : Leads s₀ (State.cleaningLoaded s t) := by
  unfold cleaningLoaded
  try dsimp only
  (repeat' split) <;> (repeat' first
    | with_reducible assumption | with_reducible apply expiredEjects_leads | with_reducible apply Leads.setLsq | with_reducible apply Leads.setDtc
    | exact Or.inl rfl | intro _)

theorem loadReadEnds_leads {s₀ s : State} (h : Leads s₀ s) (ok : Bool) : Leads s₀ (State.loadReadEnds s ok) := by
  unfold loadReadEnds
  try dsimp only
  (repeat' split) <;> (repeat' first
    | with_reducible assumption | with_reducible apply cleaningLoaded_leads | with_reducible apply dataLoaded_leads
    | with_reducible apply loadEjects_leads | intro _)

theorem rereadGood_leads {s₀ s : State} (h : Leads s₀ s) (t : Tag) : Leads s₀ (State.rereadGood s t) := by
  unfold rereadGood
  try dsimp only
  (repeat' split) <;> (repeat' first
    | with_reducible assumption | with_reducible apply enterReady_leads | with_reducible apply enterRecovering_leads
    | with_reducible apply Leads.setDtc | exact Or.inl rfl | rfl | exact SlotsKept.refl _ | exact Slot.Keeps.same rfl rfl | exact Slot.Keeps.free _
    | exact Slot.Keeps.setPin .. | exact Or.inr (Or.inl rfl) | exact fun _ hk => hk | exact Or.inl Nat.le.refl | exact Or.inl (List.length_set ..)
    | exact Or.inl (List.length_map ..) | exact Or.inl (Nat.zero_le _) | exact Or.inr (Nat.zero_le _) | exact Or.inr rfl
    | exact Or.inl (List.length_mapIdx ..) | decide | intro _)

theorem rereadEnds_leads {s₀ s : State} (h : Leads s₀ s) (ok : Bool) : Leads s₀ (State.rereadEnds s ok) := by
  unfold rereadEnds
  try dsimp only
  (repeat' split) <;> (repeat' first
    | with_reducible assumption | with_reducible apply rereadGood_leads | with_reducible apply enterRewinding_leads
    | with_reducible apply addReason_leads | intro _)

theorem staleFailed_leads {s₀ s : State} (h : Leads s₀ s) (waiters : List Part) : Leads s₀ (s.staleFailed waiters) := by
  unfold staleFailed
  refine Leads.setDtc _ _ (Leads.foldl _ (fun t r ht => ?_) _ _ h)
  split
  · exact loseSession_leads ht r .tagFault
  · exact ht

theorem checkpointFailed_leads {s₀ s : State} (h : Leads s₀ s) : Leads s₀ (State.checkpointFailed s) := by
  unfold checkpointFailed
  try dsimp only
  (repeat' split) <;> (repeat' first
    | with_reducible assumption | with_reducible apply addReason_leads | with_reducible apply Leads.setDtc | exact Or.inl rfl | rfl
    | exact SlotsKept.refl _ | exact Slot.Keeps.same rfl rfl | exact Slot.Keeps.free _ | exact Slot.Keeps.setPin .. | exact Or.inr (Or.inl rfl)
    | exact fun _ hk => hk | exact Or.inl Nat.le.refl | exact Or.inl (List.length_set ..) | exact Or.inl (List.length_map ..)
    | exact Or.inl (Nat.zero_le _) | exact Or.inr (Nat.zero_le _) | exact Or.inr rfl | exact Or.inl (List.length_mapIdx ..) | decide | intro _)

theorem leaveClosing_leads {s₀ s : State} (h : Leads s₀ s) (ok : Bool) : Leads s₀ (State.leaveClosing s ok) := by
  unfold leaveClosing
  try dsimp only
  (repeat' split) <;> (repeat' first
    | with_reducible assumption | with_reducible apply enterUnthreading_leads | with_reducible apply Leads.setLsq | exact Or.inl rfl | rfl
    | exact SlotsKept.refl _ | exact Slot.Keeps.same rfl rfl | exact Slot.Keeps.free _ | exact Slot.Keeps.setPin .. | exact Or.inr (Or.inl rfl)
    | exact fun _ hk => hk | exact Or.inl Nat.le.refl | exact Or.inl (List.length_set ..) | exact Or.inl (List.length_map ..)
    | exact Or.inl (Nat.zero_le _) | exact Or.inr (Nat.zero_le _) | exact Or.inr rfl | exact Or.inl (List.length_mapIdx ..) | decide | intro _)

theorem endAccess_leads {s₀ s : State} (h : Leads s₀ s) (a : LibAccess) (result : LibResult) (detail : LibDetail) : Leads s₀ (State.endAccess s a result detail) := by
  unfold endAccess
  try dsimp only
  (repeat' split) <;> (repeat' first
    | with_reducible assumption | with_reducible apply endLibrary_leads | intro _)

theorem closeProtected_leads {s₀ s : State} (h : Leads s₀ s) (r : Part) : Leads s₀ (State.closeProtected s r) := by
  unfold closeProtected
  try dsimp only
  (repeat' split) <;> (repeat' first
    | with_reducible assumption | with_reducible apply requestClose_leads | intro _)

theorem serve_leads {s₀ s : State} (h : Leads s₀ s) (p : Port) : Leads s₀ (State.serve s p) := by
  unfold serve
  try dsimp only
  (repeat' split) <;> (repeat' first
    | with_reducible assumption | with_reducible apply Leads.setMsc | exact Or.inl rfl | rfl | exact SlotsKept.refl _ | exact Slot.Keeps.same rfl rfl
    | exact Slot.Keeps.free _ | exact Slot.Keeps.setPin .. | exact Or.inr (Or.inl rfl) | exact fun _ hk => hk | exact Or.inl Nat.le.refl
    | exact Or.inl (List.length_set ..) | exact Or.inl (List.length_map ..) | exact Or.inl (Nat.zero_le _) | exact Or.inr (Nat.zero_le _)
    | exact Or.inr rfl | exact Or.inl (List.length_mapIdx ..) | decide | intro _)

theorem withdrawFills_leads {s₀ s : State} (h : Leads s₀ s) (x : Job) : Leads s₀ (State.withdrawFills s x) := by
  unfold withdrawFills
  try dsimp only
  (repeat' split) <;> (repeat' first
    | with_reducible assumption | with_reducible apply setFill_leads | intro _)

theorem beginJob_leads {s₀ s : State} (h : Leads s₀ s) (x : Job) : Leads s₀ (State.beginJob s x) := by
  unfold beginJob
  try dsimp only
  (repeat' split) <;> (repeat' first
    | with_reducible assumption | with_reducible apply abandonScan_leads | with_reducible apply fillMoves_leads | with_reducible apply setScan_leads
    | with_reducible apply setFill_leads | with_reducible apply setRead_leads | with_reducible apply beginRecovery_leads
    | with_reducible apply moveToGoal_leads | with_reducible apply beginScan_leads | with_reducible apply relocate_leads
    | with_reducible apply stream_leads | with_reducible apply endTurn_leads | with_reducible apply Leads.setHcm | exact Or.inl rfl | rfl
    | exact SlotsKept.refl _ | exact Slot.Keeps.same rfl rfl | exact Slot.Keeps.free _ | exact Slot.Keeps.setPin .. | exact Or.inr (Or.inl rfl)
    | exact fun _ hk => hk | exact Or.inl Nat.le.refl | exact Or.inl (List.length_set ..) | exact Or.inl (List.length_map ..)
    | exact Or.inl (Nat.zero_le _) | exact Or.inr (Nat.zero_le _) | exact Or.inr rfl | exact Or.inl (List.length_mapIdx ..) | decide | intro _)

theorem grantScan_leads {s₀ s : State} (h : Leads s₀ s) (x : Job) : Leads s₀ (s.grantScan x) := by
  unfold grantScan
  (repeat' split) <;> first
    | exact h
    | exact setScan_leads h _ _

theorem startTurn_leads {s₀ s : State} (h : Leads s₀ s) (x : Job) : Leads s₀ (State.startTurn s x) := by
  unfold startTurn
  try dsimp only
  (repeat' split) <;> (repeat' first
    | with_reducible assumption | with_reducible apply grantScan_leads | with_reducible apply beginJob_leads
    | with_reducible apply withdrawFills_leads | with_reducible apply choose_leads | with_reducible apply finishRecord_leads
    | with_reducible apply Leads.setMsc | exact Or.inl rfl | rfl | exact SlotsKept.refl _ | exact Slot.Keeps.same rfl rfl | exact Slot.Keeps.free _
    | exact Slot.Keeps.setPin .. | exact Or.inr (Or.inl rfl) | exact fun _ hk => hk | exact Or.inl Nat.le.refl | exact Or.inl (List.length_set ..)
    | exact Or.inl (List.length_map ..) | exact Or.inl (Nat.zero_le _) | exact Or.inr (Nat.zero_le _) | exact Or.inr rfl
    | exact Or.inl (List.length_mapIdx ..) | decide | intro _)

theorem chooseTurn_leads {s₀ s : State} (h : Leads s₀ s) : Leads s₀ (State.chooseTurn s) := by
  unfold chooseTurn
  try dsimp only
  (repeat' split) <;> (repeat' first
    | with_reducible assumption | with_reducible apply startTurn_leads | with_reducible apply serve_leads | with_reducible apply Leads.setMsc
    | exact Or.inl rfl | rfl | exact SlotsKept.refl _ | exact Slot.Keeps.same rfl rfl | exact Slot.Keeps.free _ | exact Slot.Keeps.setPin ..
    | exact Or.inr (Or.inl rfl) | exact fun _ hk => hk | exact Or.inl Nat.le.refl | exact Or.inl (List.length_set ..)
    | exact Or.inl (List.length_map ..) | exact Or.inl (Nat.zero_le _) | exact Or.inr (Nat.zero_le _) | exact Or.inr rfl
    | exact Or.inl (List.length_mapIdx ..) | decide | intro _)

theorem yieldWaiting_leads {s₀ s : State} (h : Leads s₀ s) : Leads s₀ (State.yieldWaiting s) := by
  unfold yieldWaiting
  try dsimp only
  (repeat' split) <;> (repeat' first
    | with_reducible assumption | with_reducible apply yieldTurn_leads | intro _)

theorem grantTurn_leads {s₀ s : State} (h : Leads s₀ s) : Leads s₀ (State.grantTurn s) := by
  unfold grantTurn
  try dsimp only
  (repeat' split) <;> (repeat' first
    | with_reducible assumption | with_reducible apply yieldWaiting_leads | with_reducible apply chooseTurn_leads | intro _)

theorem leavingDone_leads {s₀ s : State} (h : Leads s₀ s) : Leads s₀ (State.leavingDone s) := by
  unfold leavingDone
  try dsimp only
  (repeat' split) <;> (repeat' first
    | with_reducible assumption | with_reducible apply beginJob_leads | with_reducible apply endTurn_leads | with_reducible apply finishRecord_leads
    | with_reducible apply Leads.setMsc | exact Or.inl rfl | rfl | exact SlotsKept.refl _ | exact Slot.Keeps.same rfl rfl | exact Slot.Keeps.free _
    | exact Slot.Keeps.setPin .. | exact Or.inr (Or.inl rfl) | exact fun _ hk => hk | exact Or.inl Nat.le.refl | exact Or.inl (List.length_set ..)
    | exact Or.inl (List.length_map ..) | exact Or.inl (Nat.zero_le _) | exact Or.inr (Nat.zero_le _) | exact Or.inr rfl
    | exact Or.inl (List.length_mapIdx ..) | decide | intro _)

theorem landed_leads {s₀ s : State} (h : Leads s₀ s) (start : Place) (target : Place) (hit : Bool) : Leads s₀ (State.landed s start target hit) := by
  unfold landed
  try dsimp only
  (repeat' split) <;> (repeat' first
    | with_reducible assumption | with_reducible apply finishRecord_leads | with_reducible apply reportTravel_leads
    | with_reducible apply Leads.setMsc | exact Or.inl rfl | rfl | exact SlotsKept.refl _ | exact Slot.Keeps.same rfl rfl | exact Slot.Keeps.free _
    | exact Slot.Keeps.setPin .. | exact Or.inr (Or.inl rfl) | exact fun _ hk => hk | exact Or.inl Nat.le.refl | exact Or.inl (List.length_set ..)
    | exact Or.inl (List.length_map ..) | exact Or.inl (Nat.zero_le _) | exact Or.inr (Nat.zero_le _) | exact Or.inr rfl
    | exact Or.inl (List.length_mapIdx ..) | decide | intro _)

theorem arriveHome_leads {s₀ s : State} (h : Leads s₀ s) : Leads s₀ (State.arriveHome s) := by
  unfold arriveHome
  try dsimp only
  (repeat' split) <;> (repeat' first
    | with_reducible assumption | with_reducible apply enterUnthreading_leads | with_reducible apply enterClosing_leads
    | with_reducible apply enterReady_leads | with_reducible apply endTurn_leads | intro _)

theorem proceed_leads {s₀ s : State} (h : Leads s₀ s) (next : Next) : Leads s₀ (State.proceed s next) := by
  unfold proceed
  try dsimp only
  (repeat' split) <;> (repeat' first
    | with_reducible assumption | with_reducible apply arriveHome_leads | with_reducible apply abandonScan_leads | with_reducible apply fillMoves_leads
    | with_reducible apply streamFor_leads | with_reducible apply choose_leads | with_reducible apply arrive_leads
    | with_reducible apply endTurn_leads | intro _)

theorem arriveRelocation_leads {s₀ s : State} (h : Leads s₀ s) : Leads s₀ (State.arriveRelocation s) := by
  unfold arriveRelocation
  try dsimp only
  (repeat' split) <;> (repeat' first
    | with_reducible assumption | with_reducible apply proceed_leads | with_reducible apply landed_leads | with_reducible apply endStopped_leads
    | intro _)

theorem wakeForWork_leads {s₀ s : State} (h : Leads s₀ s) : Leads s₀ (State.wakeForWork s) := by
  unfold wakeForWork
  try dsimp only
  (repeat' split) <;> (repeat' first
    | with_reducible assumption | with_reducible apply enterWaking_leads | intro _)

theorem forgetContenders_leads {s₀ s : State} (h : Leads s₀ s) (p : Port) : Leads s₀ (State.forgetContenders s p) := by
  unfold forgetContenders
  try dsimp only
  (repeat' split) <;> (repeat' first
    | with_reducible assumption | with_reducible apply setScan_leads | intro _)

theorem noteAbandonment_leads {s₀ s : State} (h : Leads s₀ s) : Leads s₀ (State.noteAbandonment s) := by
  unfold noteAbandonment
  try dsimp only
  (repeat' split) <;> (repeat' first
    | with_reducible assumption | with_reducible apply forgetContenders_leads | with_reducible apply pendScan_leads | intro _)

end State
end Sys2Proof.Machine
end

