-- ==== Sys2Proof/Laws/LeadsAccess.lean ====
section
/-! SUPPORT. One lemma for each shared operation of the access controller, the engines and the work of each command (spec/03, spec/05, spec/11): it leads from a state to one that `State.Leads` allows. -/

namespace Sys2Proof.Machine
namespace State

theorem openSession_leads {s₀ s : State} (h : Leads s₀ s) (p : Port) (r : Part) (object : Nat) (hs : s.sessionOf p = none) :
    Leads s₀ (s.openSession p r object) :=
  needStaleMark_leads (Leads.setRow _ _ _ h (Or.inr (Or.inr ⟨p, rfl, hs⟩))) r

theorem startWrite_leads {s₀ s : State} (h : Leads s₀ s) (p : Port) (r : Part) (c : HostCmd) : Leads s₀ (s.startWrite p r c) := by
  cases c <;> first
    | exact h
    | exact startRecord_leads h ..
    | exact startMarks_leads h ..

theorem serveWrite_leads {s₀ s : State} (h : Leads s₀ s) (p : Port) (r : Part) (c : HostCmd) : Leads s₀ (State.serveWrite s p r c) := by
  unfold serveWrite
  try dsimp only
  (repeat' split) <;> (repeat' first
    | with_reducible assumption | with_reducible apply startWrite_leads | with_reducible apply openSession_leads
    | with_reducible apply endCommand_leads | intro _)

theorem requestCopy_leads {s₀ s : State} (h : Leads s₀ s) (p : Port) (r : Part) : Leads s₀ (s.requestCopy p r) := by
  unfold requestCopy
  split
  · rename_i hi
    split at hi
    · exact setPhase_leads (takeCopySlot_leads h _ _ _ hi) _ _
    · cases hi
  · exact setPhase_leads (waitSlot_leads h _ _ _) _ _

theorem truncateAtEnd_leads {s₀ s : State} (h : Leads s₀ s) (p : Port) (r : Part) (hs : s.sessionOf p = none) : Leads s₀ (s.truncateAtEnd p r) := by
  refine endCommand_leads (Leads.setRow _ _ _ (openSession_leads h p r _ hs) ?_) _ _ _
  exact Or.inl rfl

theorem serveTruncate_leads {s₀ s : State} (h : Leads s₀ s) (p : Port) (r : Part) : Leads s₀ (s.serveTruncate p r) := by
  unfold serveTruncate
  (repeat' split) <;> first
    | exact endCommand_leads h _ _ _
    | exact requestCopy_leads h _ _
    | (rename_i hs _; exact truncateAtEnd_leads h _ _ (by simpa using hs))

theorem contextAtEnd_leads {s₀ s : State} (h : Leads s₀ s) (p : Port) (r : Part) : Leads s₀ (State.contextAtEnd s p r) := by
  unfold contextAtEnd
  try dsimp only
  (repeat' split) <;> (repeat' first
    | with_reducible assumption | with_reducible apply setContext_leads | intro _)

theorem serveRead_leads {s₀ s : State} (h : Leads s₀ s) (p : Port) (r : Part) (limit : Nat) : Leads s₀ (State.serveRead s p r limit) := by
  unfold serveRead
  try dsimp only
  (repeat' split) <;> (repeat' first
    | with_reducible assumption | with_reducible apply contextAtEnd_leads | with_reducible apply reassemble_leads
    | with_reducible apply lookupRecord_leads | with_reducible apply setRead_leads | with_reducible apply setPhase_leads
    | with_reducible apply endCommand_leads | intro _)

theorem serveScan_leads {s₀ s : State} (h : Leads s₀ s) (p : Port) (r : Part) : Leads s₀ (State.serveScan s p r) := by
  unfold serveScan
  try dsimp only
  (repeat' split) <;> (repeat' first
    | with_reducible assumption | with_reducible apply contextAtEnd_leads | with_reducible apply setScan_leads | with_reducible apply setPhase_leads
    | with_reducible apply endCommand_leads | intro _)

theorem serveMove_leads {s₀ s : State} (h : Leads s₀ s) (p : Port) : Leads s₀ (State.serveMove s p) := by
  unfold serveMove
  try dsimp only
  (repeat' split) <;> (repeat' first
    | with_reducible assumption | with_reducible apply setPhase_leads | with_reducible apply endCommand_leads | intro _)

theorem proceedCommand_leads {s₀ s : State} (h : Leads s₀ s) (p : Port) (r : Part) (c : HostCmd) : Leads s₀ (State.proceedCommand s p r c) := by
  unfold proceedCommand
  try dsimp only
  (repeat' split) <;> (repeat' first
    | with_reducible assumption | with_reducible apply serveMove_leads | with_reducible apply serveScan_leads | with_reducible apply serveRead_leads
    | with_reducible apply serveTruncate_leads | with_reducible apply serveWrite_leads | with_reducible apply setPhase_leads
    | with_reducible apply endCommand_leads | intro _)

theorem keepGrant_leads {s₀ s : State} (h : Leads s₀ s) (p : Port) (g : Grant) : Leads s₀ (State.keepGrant s p g) := by
  unfold keepGrant
  try dsimp only
  (repeat' split) <;> (repeat' first
    | with_reducible assumption | with_reducible apply Leads.setPort | exact Or.inl rfl | rfl | exact SlotsKept.refl _
    | exact Slot.Keeps.same rfl rfl | exact Slot.Keeps.free _ | exact Slot.Keeps.setPin .. | exact Or.inr (Or.inl rfl) | exact fun _ hk => hk
    | exact Or.inl Nat.le.refl | exact Or.inl (List.length_set ..) | exact Or.inl (List.length_map ..) | exact Or.inl (Nat.zero_le _)
    | exact Or.inr (Nat.zero_le _) | exact Or.inr rfl | exact Or.inl (List.length_mapIdx ..) | decide | intro _)

theorem serveOn_leads {s₀ s : State} (h : Leads s₀ s) (p : Port) (g : Grant) (c : HostCmd) : Leads s₀ (State.serveOn s p g c) := by
  unfold serveOn
  try dsimp only
  (repeat' split) <;> (repeat' first
    | with_reducible assumption | with_reducible apply keepGrant_leads | with_reducible apply proceedCommand_leads
    | with_reducible apply setPhase_leads | with_reducible apply requestClose_leads | intro _)

theorem serveSync_leads {s₀ s : State} (h : Leads s₀ s) (p : Port) : Leads s₀ (State.serveSync s p) := by
  unfold serveSync
  try dsimp only
  (repeat' split) <;> (repeat' first
    | with_reducible assumption | with_reducible apply setPhase_leads | with_reducible apply endCommand_leads | with_reducible apply closeSlot_leads
    | intro _)

theorem serveOptions_leads {s₀ s : State} (h : Leads s₀ s) (p : Port) (x : Options) : Leads s₀ (s.serveOptions p x) := by
  have h1 : Leads s₀ (s.setPort p { s.port p with options := x }) := Leads.setPort _ _ _ h rfl (Or.inl Nat.le.refl)
  unfold serveOptions
  dsimp only
  split
  · exact endCommand_leads h1 ..
  · exact endCommand_leads (mapSlots_leads h1 _ fun y => .readAheadOff y p) ..

theorem dropTurn_leads {s₀ s : State} (h : Leads s₀ s) : Leads s₀ (State.dropTurn s) := by
  unfold dropTurn
  try dsimp only
  (repeat' split) <;> (repeat' first
    | with_reducible assumption | with_reducible apply freeCopySlot_leads | with_reducible apply idleRead_leads | with_reducible apply setAcc_leads
    | with_reducible apply haltTransport_leads | with_reducible apply endTurn_leads | intro _)

theorem servePark_leads {s₀ s : State} (h : Leads s₀ s) (p : Port) : Leads s₀ (State.servePark s p) := by
  unfold servePark
  try dsimp only
  (repeat' split) <;> (repeat' first
    | with_reducible assumption | with_reducible apply dropTurn_leads | with_reducible apply enterStandby_leads
    | with_reducible apply backhitch_leads | with_reducible apply endCommand_leads | with_reducible apply requestCheckpoint_leads
    | with_reducible apply Leads.setWvu | exact Or.inl rfl | rfl | exact SlotsKept.refl _ | exact Slot.Keeps.same rfl rfl | exact Slot.Keeps.free _
    | exact Slot.Keeps.setPin .. | exact Or.inr (Or.inl rfl) | exact fun _ hk => hk | exact Or.inl Nat.le.refl | exact Or.inl (List.length_set ..)
    | exact Or.inl (List.length_map ..) | exact Or.inl (Nat.zero_le _) | exact Or.inr (Nat.zero_le _) | exact Or.inr rfl
    | exact Or.inl (List.length_mapIdx ..) | decide | intro _)

theorem setHolder_leads {s₀ s : State} (h : Leads s₀ s) (x : Holder) : Leads s₀ (State.setHolder s x) := by
  unfold setHolder
  try dsimp only
  (repeat' split) <;> (repeat' first
    | with_reducible assumption | with_reducible apply Leads.setLsq | exact Or.inl rfl | rfl | exact SlotsKept.refl _ | exact Slot.Keeps.same rfl rfl
    | exact Slot.Keeps.free _ | exact Slot.Keeps.setPin .. | exact Or.inr (Or.inl rfl) | exact fun _ hk => hk | exact Or.inl Nat.le.refl
    | exact Or.inl (List.length_set ..) | exact Or.inl (List.length_map ..) | exact Or.inl (Nat.zero_le _) | exact Or.inr (Nat.zero_le _)
    | exact Or.inr rfl | exact Or.inl (List.length_mapIdx ..) | decide | intro _)

theorem beginUnload_leads {s₀ s : State} (h : Leads s₀ s) : Leads s₀ (State.beginUnload s) := by
  unfold beginUnload
  try dsimp only
  (repeat' split) <;> (repeat' first
    | with_reducible assumption | with_reducible apply enterDraining_leads | with_reducible apply enterWaking_leads | intro _)

theorem serveUnload_leads {s₀ s : State} (h : Leads s₀ s) (p : Port) : Leads s₀ (State.serveUnload s p) := by
  unfold serveUnload
  try dsimp only
  (repeat' split) <;> (repeat' first
    | with_reducible assumption | with_reducible apply beginUnload_leads | with_reducible apply setPhase_leads
    | with_reducible apply endCommand_leads | with_reducible apply Leads.setLsq | exact Or.inl rfl | rfl | exact SlotsKept.refl _
    | exact Slot.Keeps.same rfl rfl | exact Slot.Keeps.free _ | exact Slot.Keeps.setPin .. | exact Or.inr (Or.inl rfl) | exact fun _ hk => hk
    | exact Or.inl Nat.le.refl | exact Or.inl (List.length_set ..) | exact Or.inl (List.length_map ..) | exact Or.inl (Nat.zero_le _)
    | exact Or.inr (Nat.zero_le _) | exact Or.inr rfl | exact Or.inl (List.length_mapIdx ..) | decide | intro _)

theorem serveCommand_leads {s₀ s : State} (h : Leads s₀ s) (p : Port) (c : HostCmd) : Leads s₀ (State.serveCommand s p c) := by
  unfold serveCommand
  try dsimp only
  (repeat' split) <;> (repeat' first
    | with_reducible assumption | with_reducible apply serveUnload_leads | with_reducible apply servePark_leads
    | with_reducible apply serveOptions_leads | with_reducible apply serveSync_leads | with_reducible apply serveOn_leads
    | with_reducible apply endCommand_leads | intro _)

theorem reportFault_leads {s₀ s : State} (h : Leads s₀ s) (p : Port) (x : Attention) : Leads s₀ (State.reportFault s p x) := by
  unfold reportFault
  try dsimp only
  (repeat' split) <;> (repeat' first
    | with_reducible assumption | with_reducible apply rowToNone_leads | intro _)

theorem reportAttention_leads {s₀ s : State} (h : Leads s₀ s) (p : Port) : Leads s₀ (State.reportAttention s p) := by
  unfold reportAttention
  try dsimp only
  (repeat' split) <;> (repeat' first
    | with_reducible assumption | with_reducible apply reportFault_leads | with_reducible apply endCommand_leads | with_reducible apply Leads.setPort
    | exact Or.inl rfl | rfl | exact SlotsKept.refl _ | exact Slot.Keeps.same rfl rfl | exact Slot.Keeps.free _ | exact Slot.Keeps.setPin ..
    | exact Or.inr (Or.inl rfl) | exact fun _ hk => hk | exact Or.inl Nat.le.refl | exact Or.inl (List.length_set ..)
    | exact Or.inl (List.length_map ..) | exact Or.inl (Nat.zero_le _) | exact Or.inr (Nat.zero_le _) | exact Or.inr rfl
    | exact Or.inl (List.length_mapIdx ..) | decide | intro _)

theorem holdForWrite_leads {s₀ s : State} (h : Leads s₀ s) (p : Port) (c : HostCmd) : Leads s₀ (State.holdForWrite s p c) := by
  unfold holdForWrite
  try dsimp only
  (repeat' split) <;> (repeat' first
    | with_reducible assumption | with_reducible apply refreshRow_leads | with_reducible apply Leads.setRow | exact Or.inl rfl | rfl
    | exact SlotsKept.refl _ | exact Slot.Keeps.same rfl rfl | exact Slot.Keeps.free _ | exact Slot.Keeps.setPin .. | exact Or.inr (Or.inl rfl)
    | exact fun _ hk => hk | exact Or.inl Nat.le.refl | exact Or.inl (List.length_set ..) | exact Or.inl (List.length_map ..)
    | exact Or.inl (Nat.zero_le _) | exact Or.inr (Nat.zero_le _) | exact Or.inr rfl | exact Or.inl (List.length_mapIdx ..) | decide | intro _)

theorem takeCommand_leads {s₀ s : State} (h : Leads s₀ s) (p : Port) (q : Queued) : Leads s₀ (State.takeCommand s p q) := by
  unfold takeCommand
  try dsimp only
  (repeat' split) <;> (repeat' first
    | with_reducible assumption | with_reducible apply holdForWrite_leads | with_reducible apply reportAttention_leads
    | with_reducible apply serveCommand_leads | with_reducible apply endCommand_leads | with_reducible apply Leads.setPort | exact Or.inl rfl | rfl
    | exact SlotsKept.refl _ | exact Slot.Keeps.same rfl rfl | exact Slot.Keeps.free _ | exact Slot.Keeps.setPin .. | exact Or.inr (Or.inl rfl)
    | exact fun _ hk => hk | exact Or.inl Nat.le.refl | exact Or.inl (List.length_set ..) | exact Or.inl (List.length_map ..)
    | exact Or.inl (Nat.zero_le _) | exact Or.inr (Nat.zero_le _) | exact Or.inr rfl | exact Or.inl (List.length_mapIdx ..) | decide | intro _)

theorem takeOldest_leads {s₀ s : State} (h : Leads s₀ s) (p : Port) : Leads s₀ (s.takeOldest p) := by
  unfold takeOldest
  split
  · split
    · exact h
    · rename_i q rest hw
      have hle : rest.length ≤ (s.port p).waiting.length := by rw [hw]; exact Nat.le_succ _
      exact takeCommand_leads (Leads.setPort s p { s.port p with waiting := rest } h rfl (Or.inl hle)) p q
  · exact h

theorem endClosingWait_leads {s₀ s : State} (h : Leads s₀ s) (p : Port) : Leads s₀ (State.endClosingWait s p) := by
  unfold endClosingWait
  try dsimp only
  (repeat' split) <;> (repeat' first
    | with_reducible assumption | with_reducible apply proceedCommand_leads | with_reducible apply endCommand_leads | intro _)

theorem refuseArrival_leads {s₀ s : State} (h : Leads s₀ s) (p : Port) (code : Nat) (tag : Nat) (result : HostResult) : Leads s₀ (State.refuseArrival s p code tag result) := by
  unfold refuseArrival
  try dsimp only
  (repeat' split) <;> (repeat' first
    | with_reducible assumption | with_reducible apply writeOutcome_leads | with_reducible apply sendHost_leads | intro _)

theorem abortArrival_leads {s₀ s : State} (h : Leads s₀ s) (p : Port) (code : Nat) (tag : Nat) : Leads s₀ (State.abortArrival s p code tag) := by
  unfold abortArrival
  try dsimp only
  (repeat' split) <;> (repeat' first
    | with_reducible assumption | with_reducible apply sendHost_leads | intro _)

theorem enqueue_leads {s₀ s : State} (h : Leads s₀ s) (p : Port) (q : Queued) (hw : (s.port p).waiting.length < 4) : Leads s₀ (s.enqueue p q) := by
  unfold enqueue
  split
  · exact takeCommand_leads h p q
  · refine Leads.setPort _ _ _ h rfl (Or.inr ?_)
    simp only [List.length_append, List.length_cons, List.length_nil]
    omega

theorem arriveCommand_leads {s₀ s : State} (h : Leads s₀ s) (p : Port) (code tag : Nat) (c : Option HostCmd) : Leads s₀ (s.arriveCommand p code tag c) := by
  unfold arriveCommand
  split
  · exact h
  · split
    · exact refuseArrival_leads h ..
    · split
      · exact refuseArrival_leads h ..
      · split
        · exact abortArrival_leads h ..
        · split
          · exact refuseArrival_leads h ..
          · rename_i hw; exact enqueue_leads h p _ (Nat.lt_of_not_le hw)

theorem markStopping_leads {s₀ s : State} (h : Leads s₀ s) : Leads s₀ (State.markStopping s) := by
  unfold markStopping
  try dsimp only
  (repeat' split) <;> (repeat' first
    | with_reducible assumption | with_reducible apply Leads.setMsc | exact Or.inl rfl | rfl | exact SlotsKept.refl _ | exact Slot.Keeps.same rfl rfl
    | exact Slot.Keeps.free _ | exact Slot.Keeps.setPin .. | exact Or.inr (Or.inl rfl) | exact fun _ hk => hk | exact Or.inl Nat.le.refl
    | exact Or.inl (List.length_set ..) | exact Or.inl (List.length_map ..) | exact Or.inl (Nat.zero_le _) | exact Or.inr (Nat.zero_le _)
    | exact Or.inr rfl | exact Or.inl (List.length_mapIdx ..) | decide | intro _)

theorem stopTurn_leads {s₀ s : State} (h : Leads s₀ s) (p : Port) : Leads s₀ (State.stopTurn s p) := by
  unfold stopTurn
  try dsimp only
  (repeat' split) <;> (repeat' first
    | with_reducible assumption | with_reducible apply markStopping_leads | with_reducible apply haltScan_leads
    | with_reducible apply haltTransport_leads | with_reducible apply setAcc_leads | with_reducible apply endStopped_leads | intro _)

theorem dropCopyOf_leads {s₀ s : State} (h : Leads s₀ s) (p : Port) : Leads s₀ (State.dropCopyOf s p) := by
  unfold dropCopyOf
  try dsimp only
  (repeat' split) <;> (repeat' first
    | with_reducible assumption | with_reducible apply freeCopySlot_leads | with_reducible apply setAcc_leads
    | with_reducible apply setActivity_leads | intro _)

theorem stopRead_leads {s₀ s : State} (h : Leads s₀ s) (p : Port) : Leads s₀ (State.stopRead s p) := by
  unfold stopRead
  try dsimp only
  (repeat' split) <;> (repeat' first
    | with_reducible assumption | with_reducible apply setRead_leads | with_reducible apply dropExpansions_leads
    | with_reducible apply dropPins_leads | intro _)

theorem stopTruncate_leads {s₀ s : State} (h : Leads s₀ s) (p : Port) : Leads s₀ (State.stopTruncate s p) := by
  unfold stopTruncate
  try dsimp only
  (repeat' split) <;> (repeat' first
    | with_reducible assumption | with_reducible apply dropCopy_leads | with_reducible apply setAcc_leads
    | with_reducible apply withdrawRequests_leads | intro _)

theorem stopService_leads {s₀ s : State} (h : Leads s₀ s) (p : Port) : Leads s₀ (State.stopService s p) := by
  unfold stopService
  try dsimp only
  (repeat' split) <;> (repeat' first
    | with_reducible assumption | with_reducible apply stopTruncate_leads | with_reducible apply stopRead_leads | with_reducible apply stopTurn_leads
    | with_reducible apply dropScan_leads | with_reducible apply withdrawRequests_leads | with_reducible apply dropRecord_leads | intro _)

theorem stopFillOf_leads {s₀ s : State} (h : Leads s₀ s) (p : Port) : Leads s₀ (State.stopFillOf s p) := by
  unfold stopFillOf
  try dsimp only
  (repeat' split) <;> (repeat' first
    | with_reducible assumption | with_reducible apply stopTurn_leads | with_reducible apply markStopping_leads | with_reducible apply stopFill_leads
    | with_reducible apply setFill_leads | with_reducible apply haltTransport_leads | intro _)

theorem closeOf_leads {s₀ s : State} (h : Leads s₀ s) (p : Port) : Leads s₀ (State.closeOf s p) := by
  unfold closeOf
  try dsimp only
  (repeat' split) <;> (repeat' first
    | with_reducible assumption | with_reducible apply requestClose_leads | with_reducible apply refreshRow_leads | with_reducible apply rowToNone_leads
    | intro _)

theorem answerCut_leads {s₀ s : State} (h : Leads s₀ s) (p : Port) (q : Queued) : Leads s₀ (State.answerCut p s q) := by
  unfold answerCut
  try dsimp only
  (repeat' split) <;> (repeat' first
    | with_reducible assumption | with_reducible apply sendHost_leads | intro _)

theorem answerServed_leads {s₀ s : State} (h : Leads s₀ s) (p : Port) : Leads s₀ (State.answerServed s p) := by
  unfold answerServed
  try dsimp only
  (repeat' split) <;> (repeat' first
    | with_reducible assumption | with_reducible apply sendHost_leads | with_reducible apply Leads.setPort | exact Or.inl rfl | rfl
    | exact SlotsKept.refl _ | exact Slot.Keeps.same rfl rfl | exact Slot.Keeps.free _ | exact Slot.Keeps.setPin .. | exact Or.inr (Or.inl rfl)
    | exact fun _ hk => hk | exact Or.inl Nat.le.refl | exact Or.inl (List.length_set ..) | exact Or.inl (List.length_map ..)
    | exact Or.inl (Nat.zero_le _) | exact Or.inr (Nat.zero_le _) | exact Or.inr rfl | exact Or.inl (List.length_mapIdx ..) | decide | intro _)

theorem finishCut_leads {s₀ s : State} (h : Leads s₀ s) (p : Port) : Leads s₀ (State.finishCut s p) := by
  unfold finishCut
  try dsimp only
  (repeat' split) <;> (repeat' first
    | with_reducible assumption | with_reducible apply answerServed_leads | with_reducible apply answerCut_leads | with_reducible apply closeOf_leads
    | with_reducible apply endLibrary_leads | with_reducible apply Leads.setPort | with_reducible apply Leads.foldl | exact Or.inl rfl | rfl
    | exact SlotsKept.refl _ | exact Slot.Keeps.same rfl rfl | exact Slot.Keeps.free _ | exact Slot.Keeps.setPin .. | exact Or.inr (Or.inl rfl)
    | exact fun _ hk => hk | exact Or.inl Nat.le.refl | exact Or.inl (List.length_set ..) | exact Or.inl (List.length_map ..)
    | exact Or.inl (Nat.zero_le _) | exact Or.inr (Nat.zero_le _) | exact Or.inr rfl | exact Or.inl (List.length_mapIdx ..) | decide | intro _)

theorem dropMovingCopy_leads {s₀ s : State} (h : Leads s₀ s) (p : Port) : Leads s₀ (State.dropMovingCopy s p) := by
  unfold dropMovingCopy
  split <;> first | exact dropCopyOf_leads h p | exact h

theorem cutPort_leads {s₀ s : State} (h : Leads s₀ s) (p : Port) : Leads s₀ (State.cutPort s p) := by
  unfold cutPort
  try dsimp only
  (repeat' split) <;> (repeat' first
    | with_reducible assumption | with_reducible apply finishCut_leads | with_reducible apply dropMovingCopy_leads | with_reducible apply stopFillOf_leads
    | with_reducible apply stopService_leads | with_reducible apply markStopping_leads | with_reducible apply dropExpansions_leads
    | with_reducible apply Leads.setPort | exact Or.inl rfl | rfl | exact SlotsKept.refl _ | exact Slot.Keeps.same rfl rfl | exact Slot.Keeps.free _
    | exact Slot.Keeps.setPin .. | exact Or.inr (Or.inl rfl) | exact fun _ hk => hk | exact Or.inl Nat.le.refl | exact Or.inl (List.length_set ..)
    | exact Or.inl (List.length_map ..) | exact Or.inl (Nat.zero_le _) | exact Or.inr (Nat.zero_le _) | exact Or.inr rfl
    | exact Or.inl (List.length_mapIdx ..) | decide | intro _)

theorem finishCutOf_leads {s₀ s : State} (h : Leads s₀ s) (p : Port) : Leads s₀ (State.finishCutOf s p) := by
  unfold finishCutOf
  try dsimp only
  (repeat' split) <;> (repeat' first
    | with_reducible assumption | with_reducible apply finishCut_leads | intro _)

theorem resetPort_leads {s₀ s : State} (h : Leads s₀ s) (p : Port) : Leads s₀ (State.resetPort s p) := by
  unfold resetPort
  try dsimp only
  (repeat' split) <;> (repeat' first
    | with_reducible assumption | with_reducible apply closeOf_leads | with_reducible apply stopFillOf_leads | with_reducible apply stopService_leads
    | with_reducible apply dropCopyOf_leads | with_reducible apply stopTurn_leads | with_reducible apply setFill_leads
    | with_reducible apply setRead_leads | with_reducible apply endLibrary_leads | with_reducible apply freeReadSlots_leads
    | with_reducible apply Leads.setPort | exact Or.inl rfl | rfl | exact SlotsKept.refl _ | exact Slot.Keeps.same rfl rfl | exact Slot.Keeps.free _
    | exact Slot.Keeps.setPin .. | exact Or.inr (Or.inl rfl) | exact fun _ hk => hk | exact Or.inl Nat.le.refl | exact Or.inl (List.length_set ..)
    | exact Or.inl (List.length_map ..) | exact Or.inl (Nat.zero_le _) | exact Or.inr (Nat.zero_le _) | exact Or.inr rfl
    | exact Or.inl (List.length_mapIdx ..) | decide | intro _)

theorem settle_leads {s₀ s : State} (h : Leads s₀ s) : Leads s₀ (State.settle s) := by
  unfold settle
  try dsimp only
  (repeat' split) <;> (repeat' first
    | with_reducible assumption | with_reducible apply finishCutOf_leads | with_reducible apply noteAbandonment_leads
    | with_reducible apply wakeForWork_leads | with_reducible apply yieldWaiting_leads | intro _)

theorem recordComplete_leads {s₀ s : State} (h : Leads s₀ s) (p : Port) (c : InService) (b : List Byte) : Leads s₀ (State.recordComplete s p c b) := by
  unfold recordComplete
  try dsimp only
  (repeat' split) <;> (repeat' first
    | with_reducible assumption | with_reducible apply handOver_leads | with_reducible apply setIntake_leads | with_reducible apply setPhase_leads
    | with_reducible apply Leads.setRcx | exact Or.inl rfl | rfl | exact SlotsKept.refl _ | exact Slot.Keeps.same rfl rfl | exact Slot.Keeps.free _
    | exact Slot.Keeps.setPin .. | exact Or.inr (Or.inl rfl) | exact fun _ hk => hk | exact Or.inl Nat.le.refl | exact Or.inl (List.length_set ..)
    | exact Or.inl (List.length_map ..) | exact Or.inl (Nat.zero_le _) | exact Or.inr (Nat.zero_le _) | exact Or.inr rfl
    | exact Or.inl (List.length_mapIdx ..) | decide | intro _)

theorem recordBroken_leads {s₀ s : State} (h : Leads s₀ s) (p : Port) : Leads s₀ (State.recordBroken s p) := by
  unfold recordBroken
  try dsimp only
  (repeat' split) <;> (repeat' first
    | with_reducible assumption | with_reducible apply dropRecord_leads | with_reducible apply endCommand_leads | intro _)

theorem appendData_leads {s₀ s : State} (h : Leads s₀ s) (p : Port) (c : InService) (n : Nat) (final : Bool) (bytes : List Byte) : Leads s₀ (State.appendData s p c n final bytes) := by
  unfold appendData
  try dsimp only
  (repeat' split) <;> (repeat' first
    | with_reducible assumption | with_reducible apply recordBroken_leads | with_reducible apply recordComplete_leads
    | with_reducible apply setIntake_leads | intro _)

theorem takeData_leads {s₀ s : State} (h : Leads s₀ s) (p : Port) (tag : Nat) (final : Bool) (bytes : List Byte) : Leads s₀ (State.takeData s p tag final bytes) := by
  unfold takeData
  try dsimp only
  (repeat' split) <;> (repeat' first
    | with_reducible assumption | with_reducible apply appendData_leads | intro _)

theorem takeRecord_leads {s₀ s : State} (h : Leads s₀ s) : Leads s₀ (State.takeRecord s) := by
  unfold takeRecord
  try dsimp only
  (repeat' split) <;> (repeat' first
    | with_reducible assumption | with_reducible apply Leads.setRcx | exact Or.inl rfl | rfl | exact SlotsKept.refl _ | exact Slot.Keeps.same rfl rfl
    | exact Slot.Keeps.free _ | exact Slot.Keeps.setPin .. | exact Or.inr (Or.inl rfl) | exact fun _ hk => hk | exact Or.inl Nat.le.refl
    | exact Or.inl (List.length_set ..) | exact Or.inl (List.length_map ..) | exact Or.inl (Nat.zero_le _) | exact Or.inr (Nat.zero_le _)
    | exact Or.inr rfl | exact Or.inl (List.length_mapIdx ..) | decide | intro _)

theorem completeRecord_leads {s₀ s : State} (h : Leads s₀ s) : Leads s₀ (State.completeRecord s) := by
  unfold completeRecord
  try dsimp only
  (repeat' split) <;> (repeat' first
    | with_reducible assumption | with_reducible apply handOver_leads | with_reducible apply Leads.setRcx | exact Or.inl rfl | rfl
    | exact SlotsKept.refl _ | exact Slot.Keeps.same rfl rfl | exact Slot.Keeps.free _ | exact Slot.Keeps.setPin .. | exact Or.inr (Or.inl rfl)
    | exact fun _ hk => hk | exact Or.inl Nat.le.refl | exact Or.inl (List.length_set ..) | exact Or.inl (List.length_map ..)
    | exact Or.inl (Nat.zero_le _) | exact Or.inr (Nat.zero_le _) | exact Or.inr rfl | exact Or.inl (List.length_mapIdx ..) | decide | intro _)

theorem produce_leads {s₀ s : State} (h : Leads s₀ s) : Leads s₀ (State.produce s) := by
  unfold produce
  try dsimp only
  (repeat' split) <;> (repeat' first
    | with_reducible assumption | with_reducible apply sendHost_leads | with_reducible apply Leads.setRcx | exact Or.inl rfl | rfl
    | exact SlotsKept.refl _ | exact Slot.Keeps.same rfl rfl | exact Slot.Keeps.free _ | exact Slot.Keeps.setPin .. | exact Or.inr (Or.inl rfl)
    | exact fun _ hk => hk | exact Or.inl Nat.le.refl | exact Or.inl (List.length_set ..) | exact Or.inl (List.length_map ..)
    | exact Or.inl (Nat.zero_le _) | exact Or.inr (Nat.zero_le _) | exact Or.inr rfl | exact Or.inl (List.length_mapIdx ..) | decide | intro _)

theorem idleExpander_leads {s₀ s : State} (h : Leads s₀ s) : Leads s₀ (State.idleExpander s) := by
  unfold idleExpander
  try dsimp only
  (repeat' split) <;> (repeat' first
    | with_reducible assumption | with_reducible apply Leads.setRcx | exact Or.inl rfl | rfl | exact SlotsKept.refl _ | exact Slot.Keeps.same rfl rfl
    | exact Slot.Keeps.free _ | exact Slot.Keeps.setPin .. | exact Or.inr (Or.inl rfl) | exact fun _ hk => hk | exact Or.inl Nat.le.refl
    | exact Or.inl (List.length_set ..) | exact Or.inl (List.length_map ..) | exact Or.inl (Nat.zero_le _) | exact Or.inr (Nat.zero_le _)
    | exact Or.inr rfl | exact Or.inl (List.length_mapIdx ..) | decide | intro _)

theorem releaseFragments_leads {s₀ s : State} (h : Leads s₀ s) (p : Port) (x : ReadState) : Leads s₀ (s.releaseFragments p x) :=
  Leads.setSbm _ _ (dropPins_leads h p) (SlotsKept.mapIdx _ _ fun i y => by
    (repeat' split) <;> first
      | exact .refl y
      | exact .free y
      | exact .same rfl rfl)

theorem haltOwn_leads {s₀ s : State} (h : Leads s₀ s) (x : Job) : Leads s₀ (State.haltOwn s x) := by
  unfold haltOwn
  split
  · exact haltTransport_leads h
  · exact h

theorem decodeEnds_leads {s₀ s : State} (h : Leads s₀ s) (q : ExpRequest) (n : Nat) : Leads s₀ (State.decodeEnds s q n) := by
  unfold decodeEnds
  try dsimp only
  (repeat' split) <;> (repeat' first
    | with_reducible assumption | with_reducible apply releaseFragments_leads | with_reducible apply endScan_leads
    | with_reducible apply haltOwn_leads
    | with_reducible apply endRead_leads | intro _)

theorem takeRequest_leads {s₀ s : State} (h : Leads s₀ s) : Leads s₀ (State.takeRequest s) := by
  unfold takeRequest
  try dsimp only
  (repeat' split) <;> (repeat' first
    | with_reducible assumption | with_reducible apply decodeEnds_leads | with_reducible apply produce_leads | with_reducible apply Leads.setRcx
    | exact Or.inl rfl | rfl | exact SlotsKept.refl _ | exact Slot.Keeps.same rfl rfl | exact Slot.Keeps.free _ | exact Slot.Keeps.setPin ..
    | exact Or.inr (Or.inl rfl) | exact fun _ hk => hk | exact Or.inl Nat.le.refl | exact Or.inl (List.length_set ..)
    | exact Or.inl (List.length_map ..) | exact Or.inl (Nat.zero_le _) | exact Or.inr (Nat.zero_le _) | exact Or.inr rfl
    | exact Or.inl (List.length_mapIdx ..) | decide | intro _)

theorem readExpanded_leads {s₀ s : State} (h : Leads s₀ s) (e : Expander) : Leads s₀ (State.readExpanded s e) := by
  unfold readExpanded
  try dsimp only
  (repeat' split) <;> (repeat' first
    | with_reducible assumption | with_reducible apply advanceReader_leads | with_reducible apply endRead_leads | with_reducible apply sendHost_leads
    | with_reducible apply countStored_leads | intro _)

theorem scanExpanded_leads {s₀ s : State} (h : Leads s₀ s) (e : Expander) : Leads s₀ (State.scanExpanded s e) := by
  unfold scanExpanded
  try dsimp only
  (repeat' split) <;> (repeat' first
    | with_reducible assumption | with_reducible apply releaseScanned_leads | with_reducible apply scanSettled_leads | intro _)

theorem expanded_leads {s₀ s : State} (h : Leads s₀ s) : Leads s₀ (State.expanded s) := by
  unfold expanded
  try dsimp only
  (repeat' split) <;> (repeat' first
    | with_reducible assumption | with_reducible apply scanExpanded_leads | with_reducible apply readExpanded_leads
    | with_reducible apply idleExpander_leads | intro _)

theorem sendPassed_leads {s₀ s : State} (h : Leads s₀ s) (e : Expander) : Leads s₀ (State.sendPassed s e) := by
  unfold sendPassed
  split
  · exact sendHost_leads h _ _
  · exact h

theorem decodeFaults_leads {s₀ s : State} (h : Leads s₀ s) : Leads s₀ (State.decodeFaults s) := by
  unfold decodeFaults
  try dsimp only
  (repeat' split) <;> (repeat' first
    | with_reducible assumption | with_reducible apply decodeEnds_leads | with_reducible apply sendPassed_leads
    | with_reducible apply idleExpander_leads | intro _)

theorem refuseQuery_leads {s₀ s : State} (h : Leads s₀ s) (p : Port) (tag : Nat) (result : HostResult) : Leads s₀ (State.refuseQuery s p tag result) := by
  unfold refuseQuery
  try dsimp only
  (repeat' split) <;> (repeat' first
    | with_reducible assumption | with_reducible apply sendHost_leads | intro _)

theorem answerQuery_leads {s₀ s : State} (h : Leads s₀ s) (p : Port) (tag : Nat) (answer : HostFrame) : Leads s₀ (State.answerQuery s p tag answer) := by
  unfold answerQuery
  try dsimp only
  (repeat' split) <;> (repeat' first
    | with_reducible assumption | with_reducible apply refuseQuery_leads | with_reducible apply sendHost_leads | intro _)

theorem hostQuery_leads {s₀ s : State} (h : Leads s₀ s) (p : Port) (tag : Nat) (group : Nat) : Leads s₀ (State.hostQuery s p tag group) := by
  unfold hostQuery
  try dsimp only
  (repeat' split) <;> (repeat' first
    | with_reducible assumption | with_reducible apply answerQuery_leads | with_reducible apply refuseQuery_leads | intro _)

theorem dropReceived_leads {s₀ s : State} (h : Leads s₀ s) (p : Port) : Leads s₀ (State.dropReceived s p) := by
  unfold dropReceived
  try dsimp only
  (repeat' split) <;> (repeat' first
    | with_reducible assumption | with_reducible apply Leads.setPort | exact Or.inl rfl | rfl | exact SlotsKept.refl _
    | exact Slot.Keeps.same rfl rfl | exact Slot.Keeps.free _ | exact Slot.Keeps.setPin .. | exact Or.inr (Or.inl rfl) | exact fun _ hk => hk
    | exact Or.inl Nat.le.refl | exact Or.inl (List.length_set ..) | exact Or.inl (List.length_map ..) | exact Or.inl (Nat.zero_le _)
    | exact Or.inr (Nat.zero_le _) | exact Or.inr rfl | exact Or.inl (List.length_mapIdx ..) | decide | intro _)

theorem frameSent_leads {s₀ s : State} (h : Leads s₀ s) (p : Port) : Leads s₀ (State.frameSent s p) := by
  unfold frameSent
  try dsimp only
  (repeat' split) <;> (repeat' first
    | with_reducible assumption | with_reducible apply Leads.setPort | exact Or.inl rfl | rfl | exact SlotsKept.refl _
    | exact Slot.Keeps.same rfl rfl | exact Slot.Keeps.free _ | exact Slot.Keeps.setPin .. | exact Or.inr (Or.inl rfl) | exact fun _ hk => hk
    | exact Or.inl Nat.le.refl | exact Or.inl (List.length_set ..) | exact Or.inl (List.length_map ..) | exact Or.inl (Nat.zero_le _)
    | exact Or.inr (Nat.zero_le _) | exact Or.inr rfl | exact Or.inl (List.length_mapIdx ..) | decide | intro _)

theorem frameTaken_leads {s₀ s : State} (h : Leads s₀ s) : Leads s₀ (State.frameTaken s) := by
  unfold frameTaken
  try dsimp only
  (repeat' split) <;> (repeat' first
    | with_reducible assumption | with_reducible apply Leads.setLp | exact Or.inl rfl | rfl | exact SlotsKept.refl _ | exact Slot.Keeps.same rfl rfl
    | exact Slot.Keeps.free _ | exact Slot.Keeps.setPin .. | exact Or.inr (Or.inl rfl) | exact fun _ hk => hk | exact Or.inl Nat.le.refl
    | exact Or.inl (List.length_set ..) | exact Or.inl (List.length_map ..) | exact Or.inl (Nat.zero_le _) | exact Or.inr (Nat.zero_le _)
    | exact Or.inr rfl | exact Or.inl (List.length_mapIdx ..) | decide | intro _)

theorem seeSent_leads {s₀ s : State} (h : Leads s₀ s) : Leads s₀ (State.seeSent s) := by
  unfold seeSent
  try dsimp only
  (repeat' split) <;> (repeat' first
    | with_reducible assumption | with_reducible apply Leads.setLp | with_reducible apply Leads.setFree | exact Or.inl rfl | rfl | intro _)

theorem arriveLibrary_leads {s₀ s : State} (h : Leads s₀ s) (code : Nat) (ok : Bool) (rule : State → State) (hrule : ∀ s, Leads s₀ s → Leads s₀ (rule s)) : Leads s₀ (State.arriveLibrary s code ok rule) := by
  unfold arriveLibrary
  try dsimp only
  (repeat' split) <;> (repeat' first
    | with_reducible assumption | with_reducible apply frameTaken_leads | with_reducible apply seeSent_leads | with_reducible apply sendLib_leads | with_reducible apply hrule | intro _)

theorem hold_leads {s₀ s : State} (h : Leads s₀ s) (c : LibCommand) : Leads s₀ (State.hold s c) := by
  unfold hold
  try dsimp only
  (repeat' split) <;> (repeat' first
    | with_reducible assumption | with_reducible apply Leads.setLp | exact Or.inl rfl | rfl | exact SlotsKept.refl _ | exact Slot.Keeps.same rfl rfl
    | exact Slot.Keeps.free _ | exact Slot.Keeps.setPin .. | exact Or.inr (Or.inl rfl) | exact fun _ hk => hk | exact Or.inl Nat.le.refl
    | exact Or.inl (List.length_set ..) | exact Or.inl (List.length_map ..) | exact Or.inl (Nat.zero_le _) | exact Or.inr (Nat.zero_le _)
    | exact Or.inr rfl | exact Or.inl (List.length_mapIdx ..) | decide | intro _)

theorem pendAccess_leads {s₀ s : State} (h : Leads s₀ s) (a : LibAccess) : Leads s₀ (State.pendAccess s a) := by
  unfold pendAccess
  try dsimp only
  (repeat' split) <;> (repeat' first
    | with_reducible assumption | with_reducible apply hold_leads | with_reducible apply tick_leads | with_reducible apply Leads.setDtc
    | exact Or.inl rfl | rfl | exact SlotsKept.refl _ | exact Slot.Keeps.same rfl rfl | exact Slot.Keeps.free _ | exact Slot.Keeps.setPin ..
    | exact Or.inr (Or.inl rfl) | exact fun _ hk => hk | exact Or.inl Nat.le.refl | exact Or.inl (List.length_set ..)
    | exact Or.inl (List.length_map ..) | exact Or.inl (Nat.zero_le _) | exact Or.inr (Nat.zero_le _) | exact Or.inr rfl
    | exact Or.inl (List.length_mapIdx ..) | decide | intro _)

theorem beginLoad_leads {s₀ s : State} (h : Leads s₀ s) : Leads s₀ (State.beginLoad s) := by
  unfold beginLoad
  try dsimp only
  (repeat' split) <;> (repeat' first
    | with_reducible assumption | with_reducible apply hold_leads | with_reducible apply Leads.setLsq | with_reducible apply Leads.setDtc
    | exact Or.inl rfl | rfl | exact SlotsKept.refl _ | exact Slot.Keeps.same rfl rfl | exact Slot.Keeps.free _ | exact Slot.Keeps.setPin ..
    | exact Or.inr (Or.inl rfl) | exact fun _ hk => hk | exact Or.inl Nat.le.refl | exact Or.inl (List.length_set ..)
    | exact Or.inl (List.length_map ..) | exact Or.inl (Nat.zero_le _) | exact Or.inr (Nat.zero_le _) | exact Or.inr rfl
    | exact Or.inl (List.length_mapIdx ..) | decide | intro _)

theorem takeLoad_leads {s₀ s : State} (h : Leads s₀ s) : Leads s₀ (State.takeLoad s) := by
  unfold takeLoad
  try dsimp only
  (repeat' split) <;> (repeat' first
    | with_reducible assumption | with_reducible apply beginLoad_leads | with_reducible apply answerTaken_leads | intro _)

theorem libraryUnload_leads {s₀ s : State} (h : Leads s₀ s) : Leads s₀ (State.libraryUnload s) := by
  unfold libraryUnload
  try dsimp only
  (repeat' split) <;> (repeat' first
    | with_reducible assumption | with_reducible apply hold_leads | with_reducible apply setHolder_leads | with_reducible apply Leads.setLsq
    | exact Or.inl rfl | rfl | exact SlotsKept.refl _ | exact Slot.Keeps.same rfl rfl | exact Slot.Keeps.free _ | exact Slot.Keeps.setPin ..
    | exact Or.inr (Or.inl rfl) | exact fun _ hk => hk | exact Or.inl Nat.le.refl | exact Or.inl (List.length_set ..)
    | exact Or.inl (List.length_map ..) | exact Or.inl (Nat.zero_le _) | exact Or.inr (Nat.zero_le _) | exact Or.inr rfl
    | exact Or.inl (List.length_mapIdx ..) | decide | intro _)

theorem joinUnload_leads {s₀ s : State} (h : Leads s₀ s) : Leads s₀ (State.joinUnload s) := by
  unfold joinUnload
  try dsimp only
  (repeat' split) <;> (repeat' first
    | with_reducible assumption | with_reducible apply hold_leads | with_reducible apply pendScan_leads | with_reducible apply Leads.setLsq
    | exact Or.inl rfl | rfl | exact SlotsKept.refl _ | exact Slot.Keeps.same rfl rfl | exact Slot.Keeps.free _ | exact Slot.Keeps.setPin ..
    | exact Or.inr (Or.inl rfl) | exact fun _ hk => hk | exact Or.inl Nat.le.refl | exact Or.inl (List.length_set ..)
    | exact Or.inl (List.length_map ..) | exact Or.inl (Nat.zero_le _) | exact Or.inr (Nat.zero_le _) | exact Or.inr rfl
    | exact Or.inl (List.length_mapIdx ..) | decide | intro _)

theorem takeUnload_leads {s₀ s : State} (h : Leads s₀ s) : Leads s₀ (State.takeUnload s) := by
  unfold takeUnload
  try dsimp only
  (repeat' split) <;> (repeat' first
    | with_reducible assumption | with_reducible apply joinUnload_leads | with_reducible apply libraryUnload_leads | with_reducible apply hold_leads
    | with_reducible apply beginUnload_leads | with_reducible apply enterEjected_leads | with_reducible apply forcedPath_leads
    | with_reducible apply answerTaken_leads | intro _)

theorem takeCut_leads {s₀ s : State} (h : Leads s₀ s) (p : Port) : Leads s₀ (State.takeCut s p) := by
  unfold takeCut
  try dsimp only
  (repeat' split) <;> (repeat' first
    | with_reducible assumption | with_reducible apply hold_leads | with_reducible apply cutPort_leads | intro _)

theorem closeUngranted_leads {s₀ s : State} (h : Leads s₀ s) (p : Port) : Leads s₀ (State.closeUngranted s p) := by
  unfold closeUngranted
  try dsimp only
  (repeat' split) <;> (repeat' first
    | with_reducible assumption | with_reducible apply requestClose_leads | intro _)

theorem loseRegranted_leads {s₀ s : State} (h : Leads s₀ s) (p : Port) (logical : Nat) (old : Option Grant) (new : Option Grant) : Leads s₀ (State.loseRegranted s p logical old new) := by
  unfold loseRegranted
  try dsimp only
  (repeat' split) <;> (repeat' first
    | with_reducible assumption | with_reducible apply setContext_leads | intro _)

theorem takeLayOut_leads {s₀ s : State} (h : Leads s₀ s) (lanes : List Nat) : Leads s₀ (State.takeLayOut s lanes) := by
  unfold takeLayOut
  try dsimp only
  (repeat' split) <;> (repeat' first
    | with_reducible assumption | with_reducible apply pendAccess_leads | with_reducible apply answerTaken_leads | intro _)

theorem takeLock_leads {s₀ s : State} (h : Leads s₀ s) (part : Nat) (value : Bool) : Leads s₀ (State.takeLock s part value) := by
  unfold takeLock
  try dsimp only
  (repeat' split) <;> (repeat' first
    | with_reducible assumption | with_reducible apply pendAccess_leads | with_reducible apply answerTaken_leads | intro _)

theorem takeReadAttribute_leads {s₀ s : State} (h : Leads s₀ s) (id : Nat) : Leads s₀ (State.takeReadAttribute s id) := by
  unfold takeReadAttribute
  try dsimp only
  (repeat' split) <;> (repeat' first
    | with_reducible assumption | with_reducible apply pendAccess_leads | with_reducible apply answerTaken_leads | intro _)

theorem takeWriteAttribute_leads {s₀ s : State} (h : Leads s₀ s) (id : Nat) (bytes : List Byte) : Leads s₀ (State.takeWriteAttribute s id bytes) := by
  unfold takeWriteAttribute
  try dsimp only
  (repeat' split) <;> (repeat' first
    | with_reducible assumption | with_reducible apply pendAccess_leads | with_reducible apply answerTaken_leads | intro _)

theorem actInterval_leads {s₀ s : State} (h : Leads s₀ s) : Leads s₀ (State.actInterval s) := by
  unfold actInterval
  try dsimp only
  (repeat' split) <;> (repeat' first
    | with_reducible assumption | with_reducible apply startInterval_leads | with_reducible apply requestCheckpointFromSetting_leads | intro _)

theorem takeBreak_leads {s₀ s : State} (h : Leads s₀ s) : Leads s₀ (State.takeBreak s) := by
  unfold takeBreak
  try dsimp only
  (repeat' split) <;> (repeat' first
    | with_reducible assumption | with_reducible apply enterWaking_leads | with_reducible apply Leads.setLp | exact Or.inl rfl | rfl
    | exact SlotsKept.refl _ | exact Slot.Keeps.same rfl rfl | exact Slot.Keeps.free _ | exact Slot.Keeps.setPin .. | exact Or.inr (Or.inl rfl)
    | exact fun _ hk => hk | exact Or.inl Nat.le.refl | exact Or.inl (List.length_set ..) | exact Or.inl (List.length_map ..)
    | exact Or.inl (Nat.zero_le _) | exact Or.inr (Nat.zero_le _) | exact Or.inr rfl | exact Or.inl (List.length_mapIdx ..) | decide | intro _)

theorem resetLibraryLine_leads {s₀ s : State} (h : Leads s₀ s) : Leads s₀ (State.resetLibraryLine s) := by
  unfold resetLibraryLine
  try dsimp only
  (repeat' split) <;> (repeat' first
    | with_reducible assumption | with_reducible apply Leads.setDtc | with_reducible apply Leads.setLp | exact Or.inl rfl | rfl
    | exact SlotsKept.refl _ | exact Slot.Keeps.same rfl rfl | exact Slot.Keeps.free _ | exact Slot.Keeps.setPin .. | exact Or.inr (Or.inl rfl)
    | exact fun _ hk => hk | exact Or.inl Nat.le.refl | exact Or.inl (List.length_set ..) | exact Or.inl (List.length_map ..)
    | exact Or.inl (Nat.zero_le _) | exact Or.inr (Nat.zero_le _) | exact Or.inr rfl | exact Or.inl (List.length_mapIdx ..) | decide | intro _)

theorem captureLeader_leads {s₀ s : State} (h : Leads s₀ s) : Leads s₀ (State.captureLeader s) := by
  unfold captureLeader
  try dsimp only
  (repeat' split) <;> (repeat' first
    | with_reducible assumption | with_reducible apply Leads.setLsq | with_reducible apply Leads.setMsc | exact Or.inl rfl | rfl
    | exact SlotsKept.refl _ | exact Slot.Keeps.same rfl rfl | exact Slot.Keeps.free _ | exact Slot.Keeps.setPin .. | exact Or.inr (Or.inl rfl)
    | exact fun _ hk => hk | exact Or.inl Nat.le.refl | exact Or.inl (List.length_set ..) | exact Or.inl (List.length_map ..)
    | exact Or.inl (Nat.zero_le _) | exact Or.inr (Nat.zero_le _) | exact Or.inr rfl | exact Or.inl (List.length_mapIdx ..) | decide | intro _)

theorem threadFails_leads {s₀ s : State} (h : Leads s₀ s) : Leads s₀ (State.threadFails s) := by
  unfold threadFails
  try dsimp only
  (repeat' split) <;> (repeat' first
    | with_reducible assumption | with_reducible apply enterUnthreading_leads | with_reducible apply abandonCleaning_leads
    | with_reducible apply Leads.setLsq | exact Or.inl rfl | rfl | exact SlotsKept.refl _ | exact Slot.Keeps.same rfl rfl | exact Slot.Keeps.free _
    | exact Slot.Keeps.setPin .. | exact Or.inr (Or.inl rfl) | exact fun _ hk => hk | exact Or.inl Nat.le.refl | exact Or.inl (List.length_set ..)
    | exact Or.inl (List.length_map ..) | exact Or.inl (Nat.zero_le _) | exact Or.inr (Nat.zero_le _) | exact Or.inr rfl
    | exact Or.inl (List.length_mapIdx ..) | decide | intro _)

theorem expireThread_leads {s₀ s : State} (h : Leads s₀ s) : Leads s₀ s.expireThread := by
  unfold expireThread
  split
  · split
    · rename_i hr; exact Leads.setLsq _ _ h (Or.inr hr)
    · exact threadFails_leads h
  · exact h

theorem settleTensioning_leads {s₀ s : State} (h : Leads s₀ s) : Leads s₀ (State.settleTensioning s) := by
  unfold settleTensioning
  try dsimp only
  (repeat' split) <;> (repeat' first
    | with_reducible assumption | with_reducible apply enterReady_leads | with_reducible apply enterRecovering_leads
    | with_reducible apply enter_leads | with_reducible apply Leads.setMsc | with_reducible apply Leads.setDtc | exact Or.inl rfl | rfl
    | exact SlotsKept.refl _ | exact Slot.Keeps.same rfl rfl | exact Slot.Keeps.free _ | exact Slot.Keeps.setPin .. | exact Or.inr (Or.inl rfl)
    | exact fun _ hk => hk | exact Or.inl Nat.le.refl | exact Or.inl (List.length_set ..) | exact Or.inl (List.length_map ..)
    | exact Or.inl (Nat.zero_le _) | exact Or.inr (Nat.zero_le _) | exact Or.inr rfl | exact Or.inl (List.length_mapIdx ..) | decide | intro _)

theorem settleWaking_leads {s₀ s : State} (h : Leads s₀ s) : Leads s₀ (State.settleWaking s) := by
  unfold settleWaking
  try dsimp only
  (repeat' split) <;> (repeat' first
    | with_reducible assumption | with_reducible apply enterDraining_leads | with_reducible apply wakeToReady_leads
    | with_reducible apply Leads.setMsc | exact Or.inl rfl | rfl | exact SlotsKept.refl _ | exact Slot.Keeps.same rfl rfl | exact Slot.Keeps.free _
    | exact Slot.Keeps.setPin .. | exact Or.inr (Or.inl rfl) | exact fun _ hk => hk | exact Or.inl Nat.le.refl | exact Or.inl (List.length_set ..)
    | exact Or.inl (List.length_map ..) | exact Or.inl (Nat.zero_le _) | exact Or.inr (Nat.zero_le _) | exact Or.inr rfl
    | exact Or.inl (List.length_mapIdx ..) | decide | intro _)

theorem settleTension_leads {s₀ s : State} (h : Leads s₀ s) : Leads s₀ (State.settleTension s) := by
  unfold settleTension
  try dsimp only
  (repeat' split) <;> (repeat' first
    | with_reducible assumption | with_reducible apply settleWaking_leads | with_reducible apply settleTensioning_leads | intro _)

theorem loseTension_leads {s₀ s : State} (h : Leads s₀ s) : Leads s₀ (State.loseTension s) := by
  unfold loseTension
  try dsimp only
  (repeat' split) <;> (repeat' first
    | with_reducible assumption | with_reducible apply emergencyStop_leads | with_reducible apply addReason_leads | intro _)

theorem releaseLeader_leads {s₀ s : State} (h : Leads s₀ s) : Leads s₀ (State.releaseLeader s) := by
  unfold releaseLeader
  try dsimp only
  (repeat' split) <;> (repeat' first
    | with_reducible assumption | with_reducible apply leaderOut_leads | intro _)

theorem meetHeader_leads {s₀ s : State} (hs : Leads s₀ s) (r : Part) (o : Nat) (h : SegHeader) (l : List Entry) : Leads s₀ (State.meetHeader s r o h l) := by
  unfold meetHeader
  try dsimp only
  (repeat' split) <;> (repeat' first
    | with_reducible assumption | with_reducible apply setLandmark_leads | with_reducible apply headTo_leads | intro _)

theorem scanMeets_leads {s₀ s : State} (hs : Leads s₀ s) (x : HeaderScan) (o : Nat) (h : SegHeader) (l : List Entry) : Leads s₀ (State.scanMeets s x o h l) := by
  unfold scanMeets
  try dsimp only
  (repeat' split) <;> (repeat' first
    | with_reducible assumption | with_reducible apply beginCopy_leads | with_reducible apply scanHeader_leads | with_reducible apply failScan_leads
    | with_reducible apply streamFor_leads | with_reducible apply headTo_leads | intro _)

theorem seekMeets_leads {s₀ s : State} (hs : Leads s₀ s) (o : Nat) (h : SegHeader) (l : List Entry) : Leads s₀ (State.seekMeets s o h l) := by
  unfold seekMeets
  try dsimp only
  (repeat' split) <;> (repeat' first
    | with_reducible assumption | with_reducible apply meetHeader_leads | with_reducible apply seekHeader_leads | with_reducible apply seekEnds_leads
    | with_reducible apply recoveryHeader_leads | with_reducible apply headTo_leads | intro _)

theorem takeHeader_leads {s₀ s : State} (hs : Leads s₀ s) (o : Nat) (h : SegHeader) (l : List Entry) : Leads s₀ (State.takeHeader s o h l) := by
  unfold takeHeader
  try dsimp only
  (repeat' split) <;> (repeat' first
    | with_reducible assumption | with_reducible apply seekMeets_leads | with_reducible apply scanMeets_leads
    | with_reducible apply headerPassed_leads | intro _)

theorem scanUnreadable_leads {s₀ s : State} (h : Leads s₀ s) (x : HeaderScan) (o : Nat) : Leads s₀ (State.scanUnreadable s x o) := by
  unfold scanUnreadable
  try dsimp only
  (repeat' split) <;> (repeat' first
    | with_reducible assumption | with_reducible apply failScan_leads | with_reducible apply startCopy_leads | with_reducible apply headTo_leads
    | intro _)

theorem seekUnreadable_leads {s₀ s : State} (h : Leads s₀ s) (o : Nat) : Leads s₀ (State.seekUnreadable s o) := by
  unfold seekUnreadable
  try dsimp only
  (repeat' split) <;> (repeat' first
    | with_reducible assumption | with_reducible apply seekHeader_leads | with_reducible apply seekEnds_leads | with_reducible apply startCopy_leads
    | with_reducible apply headTo_leads | intro _)

theorem takeUnreadable_leads {s₀ s : State} (h : Leads s₀ s) (o : Nat) : Leads s₀ (State.takeUnreadable s o) := by
  unfold takeUnreadable
  try dsimp only
  (repeat' split) <;> (repeat' first
    | with_reducible assumption | with_reducible apply seekUnreadable_leads | with_reducible apply scanUnreadable_leads
    | with_reducible apply aheadTo_leads | with_reducible apply passEnds_leads | with_reducible apply headTo_leads | intro _)

theorem takeStripes_leads {s₀ s : State} (h : Leads s₀ s) (readable : StripeSet) (named : Bool) (content : Segment) : Leads s₀ (State.takeStripes s readable named content) := by
  unfold takeStripes
  try dsimp only
  (repeat' split) <;> (repeat' first
    | with_reducible assumption | with_reducible apply copyPassed_leads | with_reducible apply endStopped_leads | with_reducible apply headTo_leads
    | intro _)

theorem recoveryRewrite_leads {s₀ s : State} (h : Leads s₀ s) (o : Nat) (segment : Nat) (attempt : Nat) : Leads s₀ (State.recoveryRewrite s o segment attempt) := by
  unfold recoveryRewrite
  try dsimp only
  (repeat' split) <;> (repeat' first
    | with_reducible assumption | with_reducible apply passRewrite_leads | intro _)

theorem takeRewriteStripe_leads {s₀ s : State} (h : Leads s₀ s) (o : Nat) (segment : Nat) (attempt : Nat) (stripe : Nat) : Leads s₀ (State.takeRewriteStripe s o segment attempt stripe) := by
  unfold takeRewriteStripe
  try dsimp only
  (repeat' split) <;> (repeat' first
    | with_reducible assumption | with_reducible apply recoveryRewrite_leads | with_reducible apply rewritePassed_leads
    | with_reducible apply headTo_leads | intro _)

theorem spanEnds_leads {s₀ s : State} (h : Leads s₀ s) : Leads s₀ (State.spanEnds s) := by
  unfold spanEnds
  try dsimp only
  (repeat' split) <;> (repeat' first
    | with_reducible assumption | with_reducible apply passEnds_leads | with_reducible apply headTo_leads | intro _)

theorem takeBlank_leads {s₀ s : State} (h : Leads s₀ s) : Leads s₀ (State.takeBlank s) := by
  unfold takeBlank
  try dsimp only
  (repeat' split) <;> (repeat' first
    | with_reducible assumption | with_reducible apply endPartition_leads | with_reducible apply headTo_leads | intro _)

theorem scanLaneEnd_leads {s₀ s : State} (h : Leads s₀ s) (x : HeaderScan) : Leads s₀ (State.scanLaneEnd s x) := by
  unfold scanLaneEnd
  try dsimp only
  (repeat' split) <;> (repeat' first
    | with_reducible assumption | with_reducible apply failScan_leads | with_reducible apply streamFor_leads | with_reducible apply nextLane_leads
    | with_reducible apply headTo_leads | intro _)

theorem seekLaneEnd_leads {s₀ s : State} (h : Leads s₀ s) : Leads s₀ (State.seekLaneEnd s) := by
  unfold seekLaneEnd
  try dsimp only
  (repeat' split) <;> (repeat' first
    | with_reducible assumption | with_reducible apply seekEnds_leads | with_reducible apply streamFor_leads
    | with_reducible apply recoveryLaneEnd_leads | with_reducible apply nextLane_leads | with_reducible apply headTo_leads | intro _)

theorem aheadLaneEnd_leads {s₀ s : State} (h : Leads s₀ s) (a : Acc) : Leads s₀ (State.aheadLaneEnd s a) := by
  unfold aheadLaneEnd
  try dsimp only
  (repeat' split) <;> (repeat' first
    | with_reducible assumption | with_reducible apply passEnds_leads | with_reducible apply setAcc_leads | with_reducible apply streamFor_leads
    | with_reducible apply nextLane_leads | with_reducible apply headTo_leads | intro _)

theorem reachLaneEnd_leads {s₀ s : State} (h : Leads s₀ s) (outcomes : List ChannelOutcome) : Leads s₀ (State.reachLaneEnd s outcomes) := by
  unfold reachLaneEnd
  try dsimp only
  (repeat' split) <;> (repeat' first
    | with_reducible assumption | with_reducible apply aheadLaneEnd_leads | with_reducible apply seekLaneEnd_leads
    | with_reducible apply scanLaneEnd_leads | with_reducible apply takeOutcome_leads | with_reducible apply afterOutcome_leads
    | with_reducible apply headTo_leads | with_reducible apply Leads.foldl | exact Or.inl rfl | rfl | exact SlotsKept.refl _
    | exact Slot.Keeps.same rfl rfl | exact Slot.Keeps.free _ | exact Slot.Keeps.setPin .. | exact Or.inr (Or.inl rfl) | exact fun _ hk => hk
    | exact Or.inl Nat.le.refl | exact Or.inl (List.length_set ..) | exact Or.inl (List.length_map ..) | exact Or.inl (Nat.zero_le _)
    | exact Or.inr (Nat.zero_le _) | exact Or.inr rfl | exact Or.inl (List.length_mapIdx ..) | decide | intro _)

theorem segmentWritten_leads {s₀ s : State} (h : Leads s₀ s) : Leads s₀ s.segmentWritten := by
  unfold segmentWritten
  split
  · split
    · exact h
    · rename_i hi; exact choose_leads (writeSegment_leads h _ _ _ (writeSide_of_writeSlotOf hi)) _
  · exact h

theorem rewriteWritten_leads {s₀ s : State} (h : Leads s₀ s) : Leads s₀ (State.rewriteWritten s) := by
  unfold rewriteWritten
  try dsimp only
  (repeat' split) <;> (repeat' first
    | with_reducible assumption | with_reducible apply writeRewrite_leads | with_reducible apply choose_leads | intro _)

theorem verifyArrives_leads {s₀ s : State} (h : Leads s₀ s) (segment : Nat) (attempt : Nat) (failed : StripeSet) : Leads s₀ (State.verifyArrives s segment attempt failed) := by
  unfold verifyArrives
  try dsimp only
  (repeat' split) <;> (repeat' first
    | with_reducible assumption | with_reducible apply afterOutcome_leads | with_reducible apply headAtOutcome_leads
    | with_reducible apply takeVerify_leads | intro _)

theorem rewriteArrives_leads {s₀ s : State} (h : Leads s₀ s) (segment : Nat) (stripe : Nat) (passed : Bool) : Leads s₀ (State.rewriteArrives s segment stripe passed) := by
  unfold rewriteArrives
  try dsimp only
  (repeat' split) <;> (repeat' first
    | with_reducible assumption | with_reducible apply afterOutcome_leads | with_reducible apply headAtOutcome_leads
    | with_reducible apply takeRewrite_leads | intro _)

theorem expireHold_leads {s₀ s : State} (h : Leads s₀ s) (r : Part) : Leads s₀ (State.expireHold s r) := by
  unfold expireHold
  try dsimp only
  (repeat' split) <;> (repeat' first
    | with_reducible assumption | with_reducible apply requestClose_leads | with_reducible apply Leads.setRow | exact Or.inl rfl | rfl
    | exact SlotsKept.refl _ | exact Slot.Keeps.same rfl rfl | exact Slot.Keeps.free _ | exact Slot.Keeps.setPin .. | exact Or.inr (Or.inl rfl)
    | exact fun _ hk => hk | exact Or.inl Nat.le.refl | exact Or.inl (List.length_set ..) | exact Or.inl (List.length_map ..)
    | exact Or.inl (Nat.zero_le _) | exact Or.inr (Nat.zero_le _) | exact Or.inr rfl | exact Or.inl (List.length_mapIdx ..) | decide | intro _)

theorem expireInterval_leads {s₀ s : State} (h : Leads s₀ s) : Leads s₀ (State.expireInterval s) := by
  unfold expireInterval
  try dsimp only
  (repeat' split) <;> (repeat' first
    | with_reducible assumption | with_reducible apply startInterval_leads | with_reducible apply requestCheckpoint_leads | intro _)

theorem reviewRate_leads {s₀ s : State} (h : Leads s₀ s) : Leads s₀ s.reviewRate := by
  unfold reviewRate
  split
  · refine Leads.setWvu _ _ h (Or.inr ?_)
    dsimp only [Rate.review]
    (repeat' split) <;> exact Nat.zero_le 1
  · exact h

theorem endScanWait_leads {s₀ s : State} (h : Leads s₀ s) (p : Port) : Leads s₀ (State.endScanWait s p) := by
  unfold endScanWait
  try dsimp only
  (repeat' split) <;> (repeat' first
    | with_reducible assumption | with_reducible apply beginCopy_leads | with_reducible apply takeReadSlot_leads
    | with_reducible apply settleRequests_leads | with_reducible apply pinSlot_leads | intro _)

theorem endReadWait_leads {s₀ s : State} (h : Leads s₀ s) (p : Port) : Leads s₀ (State.endReadWait s p) := by
  unfold endReadWait
  try dsimp only
  (repeat' split) <;> (repeat' first
    | with_reducible assumption | with_reducible apply setRead_leads | intro _)

theorem endSync_leads {s₀ s : State} (h : Leads s₀ s) (p : Port) : Leads s₀ (State.endSync s p) := by
  unfold endSync
  try dsimp only
  (repeat' split) <;> (repeat' first
    | with_reducible assumption | with_reducible apply endWriteOk_leads | intro _)

theorem endVerified_leads {s₀ s : State} (h : Leads s₀ s) (p : Port) : Leads s₀ (State.endVerified s p) := by
  unfold endVerified
  try dsimp only
  (repeat' split) <;> (repeat' first
    | with_reducible assumption | with_reducible apply endWriteOk_leads | intro _)

theorem endBackhitch_leads {s₀ s : State} (h : Leads s₀ s) : Leads s₀ (State.endBackhitch s) := by
  unfold endBackhitch
  try dsimp only
  (repeat' split) <;> (repeat' first
    | with_reducible assumption | with_reducible apply choose_leads | with_reducible apply backhitch_leads | with_reducible apply Leads.setWvu
    | exact Or.inl rfl | rfl | exact SlotsKept.refl _ | exact Slot.Keeps.same rfl rfl | exact Slot.Keeps.free _ | exact Slot.Keeps.setPin ..
    | exact Or.inr (Or.inl rfl) | exact fun _ hk => hk | exact Or.inl Nat.le.refl | exact Or.inl (List.length_set ..)
    | exact Or.inl (List.length_map ..) | exact Or.inl (Nat.zero_le _) | exact Or.inr (Nat.zero_le _) | exact Or.inr rfl
    | exact Or.inl (List.length_mapIdx ..) | decide | intro _)

theorem endDraining_leads {s₀ s : State} (h : Leads s₀ s) : Leads s₀ (State.endDraining s) := by
  unfold endDraining
  try dsimp only
  (repeat' split) <;> (repeat' first
    | with_reducible assumption | with_reducible apply enterRewinding_leads | intro _)

end State
end Sys2Proof.Machine
end

