-- ==== Sys2Proof/Laws/Packing.lean ====
section
/-! SUPPORT. The packing code on records without repeats: where no three bytes recur within 2,048 bytes the encoder finds no match, and the record is kept as it is (R87, R88). -/

namespace Sys2Proof.Laws

open Sys2Proof.Machine

/-- No three bytes of the record recur within the distance that a copy reaches. -/
def NoRepeat (b : List Byte) : Prop :=
  ∀ j d, 1 ≤ d → d ≤ 2048 → d ≤ j → j + 2 < b.length → ¬ (b[j]? = b[j - d]? ∧ b[j + 1]? = b[j + 1 - d]? ∧ b[j + 2]? = b[j + 2 - d]?)

/-- A common beginning of three bytes or more has its first three bytes in common. -/
theorem commonLength_three {n : Nat} {l m : List Byte} (h : 3 ≤ commonLength n l m) :
    2 < l.length ∧ l[0]? = m[0]? ∧ l[1]? = m[1]? ∧ l[2]? = m[2]? := by
  have h0 : ∀ n (m : List Byte), commonLength n [] m = 0 := by intro n m; cases n <;> rfl
  have h1 : ∀ n (l : List Byte), commonLength n l [] = 0 := by intro n l; cases n <;> cases l <;> rfl
  have hc : ∀ k n l m, k + 1 ≤ commonLength n l m → ∃ x l' m' n', l = x :: l' ∧ m = x :: m' ∧ k ≤ commonLength n' l' m' := by
    intro k n l m h
    cases n with
    | zero => simp [commonLength] at h
    | succ n =>
      cases l with
      | nil => simp [h0] at h
      | cons x l =>
        cases m with
        | nil => simp [h1] at h
        | cons y m =>
          by_cases e : x = y
          · subst e; simp only [commonLength, if_true] at h; exact ⟨x, l, m, n, rfl, rfl, by omega⟩
          · simp [commonLength, e] at h
  obtain ⟨x, l, m, n, rfl, rfl, hx⟩ := hc 2 _ _ _ h
  obtain ⟨y, l, m, n, rfl, rfl, hy⟩ := hc 1 _ _ _ hx
  obtain ⟨z, l, m, n, rfl, rfl, -⟩ := hc 0 _ _ _ hy
  simp

/-- In a record without repeats no match of three bytes is found at offset `e + d`, from distance `d + 1` on. -/
theorem longestMatch_lt {b : List Byte} (hb : NoRepeat b) (m : Nat) :
    ∀ e d best, e + d ≤ b.length → m + d ≤ 2048 → best.2 < 3 →
      (longestMatch (b.drop (e + d)) ((b.take e).reverse.take m) d (b.drop e) best).2 < 3 := by
  induction m with
  | zero => intro e d best _ _ h; simpa [longestMatch] using h
  | succ m ih =>
    intro e d best hl hm h
    cases e with
    | zero => simpa [longestMatch] using h
    | succ e =>
      have he : e < b.length := by omega
      have ht : (b.take (e + 1)).reverse = b[e] :: (b.take e).reverse := by
        rw [List.take_succ_eq_append_getElem he]; simp
      have hd : b[e] :: b.drop (e + 1) = b.drop e := (List.drop_eq_getElem_cons he).symm
      have hn : commonLength 66 (b.drop (e + 1 + d)) (b.drop e) < 3 := by
        refine Nat.lt_of_not_le fun h3 => ?_
        obtain ⟨hz, h0, h1, h2⟩ := commonLength_three h3
        simp only [List.length_drop, List.getElem?_drop] at hz h0 h1 h2
        refine hb (e + 1 + d) (d + 1) (by omega) (by omega) (by omega) (by omega) ⟨?_, ?_, ?_⟩
        · rw [show e + 1 + d - (d + 1) = e by omega]; simpa using h0
        · rw [show e + 1 + d + 1 - (d + 1) = e + 1 by omega]; simpa using h1
        · rw [show e + 1 + d + 2 - (d + 1) = e + 2 by omega]; simpa using h2
      rw [ht, List.take_succ_cons, longestMatch, hd]
      rw [show e + 1 + d = e + (d + 1) by omega] at hn ⊢
      refine ih e (d + 1) _ (by omega) (by omega) ?_
      split
      · exact hn
      · exact h

/-- A record without repeats is encoded as literals, from offset `j` on. -/
theorem encodeFrom_literals {b : List Byte} (hb : NoRepeat b) (n : Nat) :
    ∀ j, j + n = b.length → encodeFrom n ((b.take j).reverse.take 2048) (b.drop j) = (b.drop j).map Token.literal := by
  induction n with
  | zero => intro j h; simp [List.drop_eq_nil_of_le (show b.length ≤ j by omega), encodeFrom]
  | succ n ih =>
    intro j h
    have hj : j < b.length := by omega
    have hm := longestMatch_lt hb 2048 j 0 (0, 0) (by omega) (by omega) (by decide)
    have ht : ((b[j] :: (b.take j).reverse.take 2048).take 2048) = (b.take (j + 1)).reverse.take 2048 := by
      rw [List.take_succ_eq_append_getElem hj]
      simp only [List.reverse_append, List.reverse_cons, List.reverse_nil, List.nil_append, List.singleton_append]
      rw [show 2048 = 2047 + 1 from rfl, List.take_succ_cons, List.take_succ_cons, List.take_take]
      rfl
    have hd : b.drop j = b[j] :: b.drop (j + 1) := List.drop_eq_getElem_cons hj
    have hbm : (bestMatch ((b.take j).reverse.take 2048) (b[j] :: b.drop (j + 1))).2 < 3 := by
      unfold bestMatch
      rw [List.take_take, ← hd]
      simpa using hm
    rw [hd, encodeFrom]
    simp only [if_neg (Nat.not_le.2 hbm), List.map_cons]
    rw [ht, ih (j + 1) (by omega)]

/-- Bits packed into bytes take at least an eighth as many bytes. -/
theorem length_packBits (n : Nat) : ∀ l : List Bool, l.length ≤ n → l.length ≤ 8 * (packBits n l).length := by
  induction n with
  | zero => intro l h; omega
  | succ n ih =>
    intro l h
    cases l with
    | nil => simp
    | cons x l =>
      have := ih ((x :: l).drop 8) (by simp only [List.length_drop, List.length_cons] at h ⊢; omega)
      simp only [packBits, List.length_cons, List.length_drop] at this ⊢
      omega

/-- The bytes that a fault sends fill less than a frame (R97, R184). -/
theorem unsentPassed_short {e : Expander} (hf : e.atFault = true) (hp : e.unsentPassed = true) : e.held.length < 8192 := by
  simp only [Expander.atFault, Expander.frameFull, Expander.unsentPassed, Bool.and_eq_true, Bool.not_eq_true', Bool.and_eq_false_iff,
    decide_eq_false_iff_not, decide_eq_true_eq] at hf hp
  omega

/-- A literal takes nine bits. -/
theorem length_literals (b : List Byte) : (streamBits (b.map Token.literal)).length = 9 * b.length := by
  have h : ∀ x : Byte, (tokenBits (.literal x)).length = 9 := fun x => rfl
  induction b with
  | nil => rfl
  | cons x b ih =>
    simp only [streamBits, List.map_cons, List.flatten_cons, List.length_append, h, List.length_cons] at ih ⊢
    omega

/-- A record without repeats is kept as it is (R88). -/
theorem storedForm_noRepeat {b : List Byte} (hb : NoRepeat b) : storedForm b = (.stored, b) := by
  have he : encode b = b.map Token.literal := by simpa [encode] using encodeFrom_literals hb b.length 0 (by omega)
  have h := length_packBits _ (streamBits (b.map Token.literal)) (Nat.le_refl _)
  rw [length_literals] at h
  have hl : ¬ (streamBytes (b.map Token.literal)).length < b.length := by
    unfold streamBytes; rw [length_literals]; omega
  simp only [storedForm, he, if_neg hl]

end Sys2Proof.Laws
end

