-- ==== Sys2Proof/Machine/Frames.lean ====
section
/-! DEFINITION. The judging of arriving frames (spec/11 11.1, 11.2, 11.6): which bytes from a host make a frame, a damaged frame or a format fault (R182), the Library Line's character receiver (R186), and the row that a good frame is. The table's rows bring whole frames, so nothing in a step calls these (log entry 58). -/

namespace Sys2Proof.Machine

/-- A number whose bytes are sent most significant first (spec/11 11.6). -/
def numberOf (l : List Byte) : Nat := l.foldl (fun n b => 256 * n + b.toNat) 0

/-! ## Host frames (R182) -/

/-- The frame check register after one bit: the reflected form of the generator 0x04C11DB7 (spec/11 11.6). -/
def crcBit (c : BitVec 32) : BitVec 32 := if c.getLsbD 0 then (c >>> 1) ^^^ 0xEDB88320 else c >>> 1

/-- The frame check register after one byte, least significant bit first. -/
def crcByte (c : BitVec 32) (b : Byte) : BitVec 32 := (List.range 8).foldl (fun c _ => crcBit c) (c ^^^ b.setWidth 32)

/-- The frame check of some bytes (spec/11 11.6). -/
def frameCheck (l : List Byte) : BitVec 32 := l.foldl crcByte 0xFFFFFFFF ^^^ 0xFFFFFFFF

/-- An undamaged frame from a host: whether it is a data frame, its tag and its body. -/
structure HostParts where
  data : Bool
  tag : Nat
  body : List Byte
deriving DecidableEq, Repr

/-- The parts of a frame whose last byte has arrived (R182); none where it is damaged: the check, the body length, or the kind is wrong. -/
def hostParts (l : List Byte) : Option HostParts :=
  match l with
  | kind :: tag :: high :: low :: rest =>
    let n := numberOf [high, low]
    if rest.length = n + 4 && n ≤ 8200 && (kind = 1 || kind = 2)
        && frameCheck (l.take (n + 4)) = BitVec.ofNat 32 (numberOf (rest.drop n)) then
      some { data := kind = 2, tag := tag.toNat, body := rest.take n }
    else none
  | _ => none

/-- The command that a code and its parameter bytes are; none for an unknown code or a body that does not fit it (R182). -/
def hostCommand (p : Port) (tag code : Nat) (l : List Byte) : Option Instr :=
  match code, l with
  | 1, [_, _, _, _] => some (.writeRecord p tag (numberOf l))
  | 2, [n, sync] => some (.writeMarks p tag n.toNat sync.toNat)
  | 3, [_, _, _, _] => some (.readRecord p tag (numberOf l))
  | 4, [] => some (.verifyScan p tag)
  | 5, logical :: object => if object.length = 4 then some (.locate p tag logical.toNat (numberOf object)) else none
  | 6, direction :: count => if count.length = 3 then some (.spaceObjects p tag direction.toNat (numberOf count)) else none
  | 7, direction :: count => if count.length = 3 then some (.spaceMarks p tag direction.toNat (numberOf count)) else none
  | 8, [] => some (.seekEnd p tag)
  | 9, [] => some (.rewind p tag none)
  | 9, [logical] => some (.rewind p tag (some logical.toNat))
  | 10, [] => some (.truncate p tag)
  | 11, [] => some (.sync p tag)
  | 12, [] => some (.park p tag)
  | 13, [] => some (.unloadRequest p tag)
  | 14, [compression, mode, readAhead] => some (.setPortOptions p tag compression.toNat mode.toNat readAhead.toNat)
  | 15, [] => some (.queryOutcome p tag)
  | 16, [group] => some (.queryDrive p tag group.toNat)
  | _, _ => none

/-- A data frame's row: its flags byte, then record bytes; an empty body carries neither (R183). -/
def dataRow (p : Port) (tag : Nat) : List Byte → Instr
  | [] => .dataFrame p tag false []
  | flags :: bytes => .dataFrame p tag (flags.getLsbD 0) bytes

/-- The code of a command frame's body; 0 for an empty one. -/
def bodyCode (l : List Byte) : Nat := (l.head?.map (·.toNat)).getD 0

/-- The row that an undamaged frame of a host is; none for a format fault (R182). -/
def hostRow (p : Port) (x : HostParts) : Option Instr :=
  if x.data then some (dataRow p x.tag x.body) else hostCommand p x.tag (bodyCode x.body) (x.body.drop 1)

/-- A well-formed command frame that fits no command ends in the ASC's format fault (R39, R182); a query's answer leaves the outcome record alone (R44). -/
def State.misfitHost (s : State) (p : Port) (tag code : Nat) : State :=
  if s.resetLine then s
  else if code = 15 || code = 16 then s.refuseQuery p tag .formatFault
  else s.arriveCommand p code tag none

/-- A whole frame has arrived at a host port (R182): judged, and discarded or carried out. -/
def receiveFrame (p : Port) (l : List Byte) (s : State) : Host.Outcome State Fault Refusal :=
  match hostParts l with
  | none => exec (.hostFrameDamaged p) s
  | some x =>
    match hostRow p x with
    | some c => exec c s
    | none => .next (s.misfitHost p x.tag (bodyCode x.body)).settle

/-! ## The Library Line (R186) -/

/-- What the line brings: a good character, or one with a parity, framing or overrun error. -/
inductive LineCharacter where
  | good (b : Byte)
  | parityError
  | framingError
  | overrun
deriving DecidableEq, Repr

/-- What a character completes: a frame with a good check, by its body, or a frame that is rejected. -/
inductive LineEvent where
  | taken (body : List Byte)
  | rejected
deriving DecidableEq, Repr

/-- The receiver with the characters after the start character, and what their last one completes (R186): a length of 0 or a check that does not hold rejects the frame. -/
def judge (l : List Byte) : Receiver × Option LineEvent :=
  match l with
  | [] => (.assembling [], none)
  | n :: rest =>
    if n = 0 then (.hunting, some .rejected)
    else if rest.length ≤ n.toNat then (.assembling l, none)
    else if (l.map (·.toNat)).sum % 256 = 0 then (.hunting, some (.taken (rest.take n.toNat)))
    else (.hunting, some .rejected)

/-- The receiver after a character (R186): hunting it waits for 0x02, assembling it adds the character, and an error there rejects the frame; in a break nothing is received (R187). -/
def receive : Receiver → LineCharacter → Receiver × Option LineEvent
  | .hunting, .good b => if b = 0x02 then (.assembling [], none) else (.hunting, none)
  | .hunting, _ => (.hunting, none)
  | .assembling l, .good b => judge (l ++ [b])
  | .assembling _, _ => (.hunting, some .rejected)
  | .inBreak, _ => (.inBreak, none)

/-- The library command that a frame's body is; none for an unknown code or a body that does not fit it (R189). -/
def libraryRow : List Byte → Option Instr
  | [] => none
  | code :: l =>
    match code.toNat, l with
    | 1, [] => some .load
    | 2, [] => some .unload
    | 3, [port] => some (.portCut port.toNat)
    | 4, [port, logical, right, physical] => some (.grant port.toNat logical.toNat right.toNat physical.toNat)
    | 5, n :: lanes => if lanes.length = n.toNat then some (.layOutPartitions (lanes.map (·.toNat))) else none
    | 6, [physical, value] => some (.lockPartition physical.toNat value.toNat)
    | 7, [id] => some (.readAttribute id.toNat)
    | 8, id :: n :: bytes => if bytes.length = n.toNat then some (.writeAttribute id.toNat bytes) else none
    | 9, [id, high, low] => some (.setSetting id.toNat (numberOf [high, low]))
    | 10, [group, port] => some (.libraryQueryDrive group.toNat port.toNat)
    | 11, [] => some .deviceReset
    | _, _ => none

/-- A library frame whose body fits no command is refused FORMAT_FAULT (R189). -/
def State.misfitLibrary (s : State) (code : Nat) : State :=
  if s.resetLine then s else s.frameTaken.sendLib .formatFault code .none

/-- A character has arrived on the Library Line (R186): the receiver takes it, and a frame it completes is rejected or carried out. -/
def receiveCharacter (c : LineCharacter) (s : State) : Host.Outcome State Fault Refusal :=
  let x := receive s.lp.receiver c
  let s := s.setLp { s.lp with receiver := x.1 }
  match x.2 with
  | none => .next s
  | some .rejected => exec .libraryFrameDamaged s
  | some (.taken body) =>
    match libraryRow body with
    | some i => exec i s
    | none => .next (s.misfitLibrary (bodyCode body))

end Sys2Proof.Machine
end

