-- ==== Sys2Proof/WellFormed.lean ====
section
/-! DEFINITION. The commands that can reach the part: operands that fit their fields in the frames of spec/11 11.6, and places, stripes and attempts that exist on the tape (R2, R3, R104). A value that fits its field and is out of its parameter's range is well formed: the part refuses it. -/

namespace Sys2Proof

/-- A number that fits in `n` bytes (spec/11 11.6). -/
def fitsBytes (n v : Nat) : Bool := v < 256 ^ n

/-- A frame tag, 0 to 255 (R39). -/
def tagFits (tag : Nat) : Bool := fitsBytes 1 tag

/-- An in-lane offset of a stripe slot (R2). -/
def offsetFits (o : Nat) : Bool := o < 48000

/-- A segment's attempt number, 0 to 2 (R104). -/
def attemptFits (n : Nat) : Bool := n ≤ 2

/-- A stripe number of a segment, 0 to 15 (R3). -/
def stripeFits (n : Nat) : Bool := n < 16

/-- A cartridge tag has attributes 1 to 32, and a cartridge without partitions has no directory (R1, R9). -/
def Tag.shaped (t : Tag) : Bool :=
  t.attributes.length == 32 &&
    match t.type with
    | .cleaning => t.parts.isEmpty
    | _ => true

/-- A segment header that the table can carry (R104): its entry count is its table's length. -/
def SegHeader.fits (h : SegHeader) (entries : List Entry) : Bool :=
  attemptFits h.attempt && h.entryCount == entries.length && entries.length ≤ 512 && h.payloadLength ≤ 262144

/-- An outcome that the head channel can report (R123). -/
def ChannelOutcome.fits : ChannelOutcome → Bool
  | .verify _ attempt _ => attemptFits attempt
  | .rewrite _ stripe _ => stripeFits stripe

/-- The well-formed commands. -/
def Instr.wellFormed : Instr → Bool
  | .powerOn cartridge threaded tab => (cartridge.map Tag.shaped).getD (!threaded && !tab)
  | .deviceReset => true
  | .resetLine => true
  | .resetLineRelease => true
  | .portReset _ => true
  | .writeRecord _ tag n => tagFits tag && fitsBytes 4 n
  | .writeMarks _ tag n f => tagFits tag && fitsBytes 1 n && fitsBytes 1 f
  | .readRecord _ tag n => tagFits tag && fitsBytes 4 n
  | .verifyScan _ tag => tagFits tag
  | .locate _ tag l o => tagFits tag && fitsBytes 1 l && fitsBytes 4 o
  | .spaceObjects _ tag d n => tagFits tag && fitsBytes 1 d && fitsBytes 3 n
  | .spaceMarks _ tag d n => tagFits tag && fitsBytes 1 d && fitsBytes 3 n
  | .seekEnd _ tag => tagFits tag
  | .rewind _ tag l => tagFits tag && (l.map (fitsBytes 1)).getD true
  | .truncate _ tag => tagFits tag
  | .sync _ tag => tagFits tag
  | .park _ tag => tagFits tag
  | .unloadRequest _ tag => tagFits tag
  | .setPortOptions _ tag c m r => tagFits tag && fitsBytes 1 c && fitsBytes 1 m && fitsBytes 1 r
  | .queryOutcome _ tag => tagFits tag
  | .queryDrive _ tag g => tagFits tag && fitsBytes 1 g
  | .dataFrame _ tag _ bytes => tagFits tag && bytes.length ≤ 8192
  | .hostFrameDamaged _ => true
  | .load => true
  | .unload => true
  | .portCut p => fitsBytes 1 p
  | .grant p l r d => fitsBytes 1 p && fitsBytes 1 l && fitsBytes 1 r && fitsBytes 1 d
  | .layOutPartitions lanes => lanes.length ≤ 253 && lanes.all (fitsBytes 1)
  | .lockPartition d v => fitsBytes 1 d && fitsBytes 1 v
  | .readAttribute n => fitsBytes 1 n
  | .writeAttribute n bytes => fitsBytes 1 n && bytes.length ≤ 252
  | .setSetting n v => fitsBytes 1 n && fitsBytes 2 v
  | .libraryQueryDrive g p => fitsBytes 1 g && fitsBytes 1 p
  | .libraryFrameDamaged => true
  | .lineBreak => true
  | .libraryLineReset => true
  | .outgoingBreak => true
  | .newDivisorEffective => true
  | .cartridgeInserted t _ => t.shaped
  | .cartridgeRemoved => true
  | .writeTabChange _ => true
  | .leaderCaptured => true
  | .threadTimerExpiry => true
  | .tensionSettled => true
  | .tensionLost => true
  | .leaderReleased => true
  | .relocationComplete => true
  | .headerRead o h l => offsetFits o && h.fits l
  | .headerUnreadable o => offsetFits o
  | .stripeSetRead _ _ c => c.header.fits c.entries && c.header.payloadLength == c.payload.length
  | .rewriteStripeRead o _ attempt stripe => offsetFits o && attemptFits attempt && stripeFits stripe
  | .lookAheadSpanEnd => true
  | .blankStretch => true
  | .laneEndReached outcomes => outcomes.all ChannelOutcome.fits
  | .segmentWritten => true
  | .rewriteWritten => true
  | .verifyOutcome _ attempt _ => attemptFits attempt
  | .rewriteOutcome _ stripe _ => stripeFits stripe
  | .holdTimerExpiry _ => true
  | .intervalTimerExpiry => true
  | .cleaningTimerExpiry => true
  | .rateReview => true
  | .tagTransactionDone _ => true
  | .tagTransactionTimeout => true
  | .tagReaderGrant => true
  | .recordPacked => true
  | .packingEngineTakesRecord => true
  | .expansionEngineTakesRequest => true
  | .recordExpanded => true
  | .decodeFault => true
  | .slotRequestGranted => true
  | .readSlotWaitEnds _ => true
  | .commandTakenIntoService _ => true
  | .closingWaitEnds _ => true
  | .syncComplete _ => true
  | .verifiedAck _ => true
  | .turnGrant => true
  | .leavingProcedureDone => true
  | .backhitchWaitEnd => true
  | .drainingEnd => true
  | .breakEnd => true
  | .hostFrameSent _ => true

end Sys2Proof
end

