-- ==== Sys2Proof/Tests/Slice0.lean ====
section
/-! SUPPORT. Tests of this model: ill-formed commands refused, one-step tests of the commands against the spec's own figures, and for every statement a witness, a state and operands that meet its hypotheses together. -/

namespace Sys2Proof.Tests

open Sys2Proof.Machine

/-! ## Small states -/

/-- A fresh data cartridge of one partition of 64 lanes (R9). -/
def card : Tag := freshTag .dataS

/-- The context at a fresh partition's beginning. -/
def bot : Context := { logical := 1, object := 0, marks := 0, atEnd := false }

/-- A port with nothing to report. -/
def quiet : PortState := { PortState.powerOn defaultSector with attention := Attention.empty }

/-- The part in Ready with a data cartridge whose single partition is as given. -/
def readyWith (d : PartDir) : State :=
  { State.reset with
    lsq := { Lsq.powerOn .ready .ejected with kind := .data }
    cart := { tag := some { card with parts := [d] }, writeTab := false }
    ports := { a := quiet, b := quiet }
    msc := { Msc.powerOn with ctx := { a := some bot, b := some bot } }
    dtc := { Dtc.reset with copy := some { type := .dataS, parts := [d], current := true }, interval := some 60 }
    lp := { Lp.powerOn 16 with breakDue := false, summary := Summary.empty } }

/-- Ready with a fresh cartridge. -/
def ready : State := readyWith (freshPart 64)

/-- A partition with 120 segments, 3,000 objects and 2 marks on its first 1,950 slots. -/
def usedPart : PartDir :=
  { lanes := 64, segments := 120, objects := 3000, marks := 2, used := 1950, locked := false,
    index := [{ lane := 0, firstSegment := 0, firstObject := 0, marksBefore := 0 }] }

/-- Ready with a cartridge that has been written. -/
def used : State := readyWith usedPart

/-- The grant of logical partition 1. -/
def grant1 : Grant := { part := 0, right := .readWrite }

/-- A state with the load machine in the state given. -/
def inState (x : LoadState) (s : State) : State := s.setLsq { s.lsq with state := x }

/-- A command in service, with the partition of logical partition 1. -/
def inHand1 (tag : Nat) (c : HostCmd) (x : Phase) : InService :=
  { tag := tag, cmd := c, part := some 0, right := some .readWrite, start := some bot, compress := true, verified := false, lost := false, phase := x }

/-- A state with a command in service at port A. -/
def busyA (c : InService) (s : State) : State := s.setPort .a { s.port .a with inService := some c }

/-- A session row of port A. -/
def rowA (state : RowState) (unverified : Nat) : Row :=
  { Row.empty with holder := some .a, state := state, unverified := unverified, admitted := unverified, nextSegment := unverified }

/-- A state with a session of port A on partition 0. -/
def sessionA (state : RowState) (unverified : Nat) (s : State) : State := s.setRow 0 (rowA state unverified)

/-- A READY slot of partition 0 with one mark. -/
def readySlot (n : Nat) : Slot :=
  { Slot.free with
    state := .ready, owner := .row 0, entries := [.mark]
    header := { blankHeader with number := n, firstObject := some n, marksBefore := some n, entryCount := 1 } }

/-- A state with the first slots as given. -/
def withSlots (l : List Slot) (s : State) : State := s.setSbm { s.sbm with slots := l ++ s.sbm.slots.drop l.length }

/-- A state with a turn of the work given and the activity given. -/
def turning (j : Job) (x : Activity) (m : Motion) (s : State) : State :=
  s.setMsc { s.msc with turn := some { job := j, written := 0, stopping := false, leaving := none }, activity := x, motion := m }

/-- A settled state is any calm state. -/
theorem calm_settled {s : State} (h : s.Calm) : s.Settled := by
  obtain ⟨ha, hb, hv, hs, hw⟩ := h
  refine ⟨?_, ?_, fun h => absurd h hs, fun r p _ h => absurd h (by simp [hw])⟩
  · intro p hp
    cases p
    · exact absurd (ha.symm.trans hp) (by decide)
    · exact absurd (hb.symm.trans hp) (by decide)
  · intro p hp
    simp [State.scanTurn, hp] at hv

theorem ready_calm : ready.Calm := ⟨rfl, rfl, rfl, by decide, rfl⟩
theorem used_calm : used.Calm := ⟨rfl, rfl, rfl, by decide, rfl⟩
theorem used_serves (p : Port) : used.Serves p := by cases p <;> exact ⟨rfl, rfl, rfl, rfl, rfl, rfl, rfl⟩
theorem used_resolves : used.Resolves .a 1 grant1 usedPart := ⟨rfl, rfl⟩
theorem used_takes : used.TakesLibrary := ⟨rfl, rfl, rfl⟩
theorem ready_serves (p : Port) : ready.Serves p := by cases p <;> exact ⟨rfl, rfl, rfl, rfl, rfl, rfl, rfl⟩
theorem ready_takes : ready.TakesLibrary := ⟨rfl, rfl, rfl⟩


/-! ## Well-formed commands: one ill-formed command for each check -/

theorem test_wellFormed_tag : (Instr.sync .a 255).wellFormed = true ∧ (Instr.sync .a 256).wellFormed = false := by decide
theorem test_wellFormed_byte : (Instr.queryDrive .a 0 255).wellFormed = true ∧ (Instr.queryDrive .a 0 256).wellFormed = false := by decide
theorem test_wellFormed_two_bytes : (Instr.setSetting 1 65535).wellFormed = true ∧ (Instr.setSetting 1 65536).wellFormed = false := by decide
theorem test_wellFormed_three_bytes : (Instr.spaceObjects .a 0 0 16777215).wellFormed = true ∧ (Instr.spaceMarks .a 0 0 16777216).wellFormed = false := by decide
theorem test_wellFormed_four_bytes : (Instr.locate .a 0 1 4294967295).wellFormed = true ∧ (Instr.locate .a 0 1 4294967296).wellFormed = false := by decide
theorem test_wellFormed_data : (Instr.dataFrame .a 0 true (List.replicate 8193 0)).wellFormed = false := by decide +kernel
theorem test_wellFormed_lanes : (Instr.layOutPartitions [256]).wellFormed = false ∧ (Instr.layOutPartitions (List.replicate 254 2)).wellFormed = false := by decide +kernel
theorem test_wellFormed_attribute : (Instr.writeAttribute 1 (List.replicate 253 0)).wellFormed = false := by decide +kernel
theorem test_wellFormed_rewind : (Instr.rewind .a 0 none).wellFormed = true ∧ (Instr.rewind .a 0 (some 256)).wellFormed = false := by decide
theorem test_wellFormed_cartridge : (Instr.cartridgeInserted { card with attributes := [] } false).wellFormed = false ∧
    (Instr.cartridgeInserted { card with type := .cleaning } false).wellFormed = false ∧ (Instr.cartridgeInserted card false).wellFormed = true := by decide
theorem test_wellFormed_power_on : (Instr.powerOn none true false).wellFormed = false ∧ (Instr.powerOn none false true).wellFormed = false := by decide
theorem test_wellFormed_offset : (Instr.headerUnreadable 47999).wellFormed = true ∧ (Instr.headerUnreadable 48000).wellFormed = false := by decide
theorem test_wellFormed_header : (Instr.headerRead 0 { blankHeader with attempt := 3 } []).wellFormed = false ∧
    (Instr.headerRead 0 { blankHeader with entryCount := 1 } []).wellFormed = false ∧ (Instr.headerRead 0 { blankHeader with payloadLength := 262145 } []).wellFormed = false := by decide
theorem test_wellFormed_contents : (Instr.stripeSetRead 0 true { header := { blankHeader with payloadLength := 1 }, entries := [], payload := [] }).wellFormed = false := by decide
theorem test_wellFormed_stripe : (Instr.rewriteOutcome 0 16 true).wellFormed = false ∧ (Instr.rewriteStripeRead 0 0 0 16).wellFormed = false ∧
    (Instr.rewriteStripeRead 0 0 3 15).wellFormed = false := by decide
theorem test_wellFormed_outcomes : (Instr.laneEndReached [.verify 0 3 0]).wellFormed = false ∧ (Instr.laneEndReached [.rewrite 0 16 true]).wellFormed = false ∧
    (Instr.verifyOutcome 0 3 0).wellFormed = false := by decide

/-! ## Places and quantities, with the spec's own figures -/

/-- R2: on an odd lane the in-lane offset o lies at coordinate 47,999 − o, and the last position of a lane is 2,999. -/
theorem test_places : (placeOf 1 0).coord = 47999 ∧ (placeOf 2 0).coord = 0 ∧ offsetOf 1 47999 = 0 ∧ positionOf 47999 = 2999 := by decide
/-- R3: a segment fits where 16 slots are free. -/
theorem test_segmentFits : segmentFits 47984 = true ∧ segmentFits 47985 = false := by decide
/-- R4: lane counts are even, at least 2, and their sum within the type's lanes. -/
theorem test_layouts : layoutValid .dataS [2, 62] = true ∧ layoutValid .dataS [2, 64] = false ∧ layoutValid .dataE [2, 64] = true ∧ layoutValid .dataS [3, 3] = false ∧
    layoutValid .dataS [] = false ∧ layoutValid .dataE [2, 2, 2, 2, 2] = false := by decide
/-- R69: a lane hit lies ahead, at most 1,024 slots away. -/
theorem test_hits : isHit { lane := 0, coord := 0 } { lane := 0, coord := 1024 } = true ∧ isHit { lane := 0, coord := 0 } { lane := 0, coord := 1025 } = false ∧
    isHit { lane := 1, coord := 100 } { lane := 1, coord := 50 } = true ∧ isHit { lane := 0, coord := 100 } { lane := 0, coord := 50 } = false := by decide
/-- R86: a run of one byte is a literal and a copy at distance 1. -/
theorem test_encode_run : encode [7, 7, 7, 7] = [.literal 7, .copy 1 3] := by decide +kernel
/-- R88: a record that packing does not shorten is kept as it is. -/
theorem test_storedForm : storedForm [1, 2, 3] = (.stored, [1, 2, 3]) := by decide +kernel

/-! ## One-step tests of commands -/

/-- The state a command leads to. -/
def after (s : State) (i : Instr) : State :=
  match exec i s with
  | .next t => t
  | .fault _ => s
  | .refused _ => s

theorem test_step_idle : step State.reset = .next State.reset := rfl
theorem test_decode_none : decodeTableWord 8 0 = none := rfl
theorem test_withFetchWord_none : State.reset.withFetchWord 8 0 = State.reset := rfl
/-- R22: a Load in Seated asks for the load read. -/
theorem test_load : (after (inState .seated State.reset) .load).lsq.state = .tagRead := by decide +kernel
/-- R21: a cartridge inserted in an empty drive is seated. -/
theorem test_inserted : (after State.reset (.cartridgeInserted card true)).lsq.state = .seated := by decide +kernel
/-- R27: a host command without a cartridge is refused NO_CARTRIDGE, and the attention set stays. -/
theorem test_no_cartridge : ((after State.reset (.sync .a 9)).port .a).outcome.map (·.result) = some .noCartridge ∧
    ((after State.reset (.sync .a 9)).port .a).attention = Attention.reset := by decide +kernel
/-- R52: a Write Record at the committed end takes the first slot and opens the session. -/
theorem test_write_opens : ((after ready (.writeRecord .a 1 10)).row 0).state = .streaming ∧ ((after ready (.writeRecord .a 1 10)).slot 0).state = .assembling := by decide +kernel
/-- R8: early warning is reported at 600 positions. -/
theorem test_ew : (readyWith { freshPart 2 with used := 86400 }).ew 0 = true ∧ (readyWith { freshPart 2 with used := 86384 }).ew 0 = false := by decide +kernel
/-- R192: a value below a setting's range is clamped to its lower end. -/
theorem test_setting : (after used (.setSetting 1 5)).sst.settings.ewReserve = 100 := by decide +kernel
/-- R188: the cartridge pulled out of Ready is reported, and an outgoing break is due. -/
theorem test_pulled : (after used .cartridgeRemoved).lp.summary.cartridgePulled = true ∧ (after used .cartridgeRemoved).lp.breakDue = true := by decide +kernel
/-- R16: lanes beyond the type's are refused. -/
theorem test_layout_refused : ((after used (.layOutPartitions [2, 64])).lp.tx).map (·.result) = [.formatFault] := by decide +kernel
/-- R185: the divisor is clamped to 255. -/
theorem test_divisor : (after used (.setSetting 6 300)).lp.newDivisors = [{ value := 255, ahead := 1 }] := by decide +kernel

/-! ## Witnesses: the queue and host commands at arrival -/

theorem witness_StepTakesTheFront : (State.reset.setPending [.load]).pending = [.load] := rfl

theorem witness_StepsKeepTheBounds : used.Sound ∧ step used = .next used := by
  refine ⟨?_, rfl⟩
  constructor
  case readSide => intro p; cases p <;> decide
  case session => intro p q r h; cases p <;> revert q r <;> decide
  case settings => constructor <;> decide
  case newDivisors => intro d h; cases h
  all_goals first | decide | exact ⟨by decide, by decide⟩

theorem witness_CleanCallNeverFalls : used.Sound ∧ exec .deviceReset used = .next (after used .deviceReset) := ⟨witness_StepsKeepTheBounds.1, rfl⟩

theorem witness_OnlyTheirCommandsChange : used.Sound ∧ exec .load used = .next (after used .load) ∧ (∀ n v, Instr.load ≠ .setSetting n v) :=
  ⟨witness_StepsKeepTheBounds.1, rfl, nofun⟩

/-- A full port: four waiting commands, so that a fifth is refused QUEUE_FULL. -/
def full : State :=
  used.setPort .a { quiet with inService := some (inHand1 9 .seekEnd .tape), waiting := [⟨0, .sync⟩, ⟨1, .sync⟩, ⟨2, .sync⟩, ⟨3, .sync⟩] }

theorem witness_HostArrivalsInOrder :
    hostArrival (.sync .a 4) = some ⟨.a, 11, 4, some .sync⟩ ∧ full.Settled ∧ full.resetLine = false ∧ full.sessionOf .a = none ∧
    (full.port .a).inService.isSome = true :=
  ⟨rfl, calm_settled ⟨rfl, rfl, rfl, by decide, rfl⟩, rfl, rfl, rfl⟩

/-- A frame with a parameter just out of range. -/
theorem witness_HostArrivalsInOrder_format :
    hostArrival (.writeRecord .a 4 1048577) = some ⟨.a, 1, 4, none⟩ ∧ hostArrival (.writeRecord .a 4 1048576) = some ⟨.a, 1, 4, some (.writeRecord 1048576)⟩ ∧
    hostArrival (.rewind .b 4 (some 8)) = some ⟨.b, 9, 4, none⟩ := by decide

/-- A Sync at a port that holds a session. -/
theorem witness_HostArrivalsInOrder_session : let s := busyA (inHand1 5 (.writeRecord 10) .receiving) (sessionA .streaming 1 used)
    hostArrival (.sync .a 5) = some ⟨.a, 11, 5, some .sync⟩ ∧ s.Settled ∧ s.resetLine = false ∧ s.sessionOf .a = some 0 ∧ s.tagInUse .a 5 = true ∧
    s.tagInUse .a 6 = false ∧ (s.port .a).cut = false ∧ (s.port .a).waiting.length < 4 ∧ (s.port .a).inService.isSome = true :=
  ⟨rfl, calm_settled ⟨rfl, rfl, rfl, by decide, rfl⟩, rfl, rfl, rfl, rfl, rfl, by decide, rfl⟩

/-- The reset line asserted. -/
def asserted : State := { used with resetLine := true }

theorem witness_AssertedLineDiscards :
    asserted.resetLine = true ∧ asserted.Settled ∧ (hostArrival (.sync .a 255)).isSome = true :=
  ⟨rfl, calm_settled ⟨rfl, rfl, rfl, by decide, rfl⟩, rfl⟩

/-- A record of one frame at its end, its last frame leaving port A. -/
def lastFrame : State :=
  (used.setPort .a { quiet with tx := [.data 1 true []] }).setRcx
    { used.rcx with expander := some { req := { port := .a, scan := false, object := 0, scheme := .stored, raw := 1, stored := 1, bytes := [7], limit := 8192 }
                                       produced := 1, history := [7], place := 8, framed := 0, held := [7] } }

theorem witness_HostLinksAreServed :
    used.resetLine = false ∧ used.rcx.expander = none ∧ (lastFrame.port .a).tx = [.data 1 true []] ∧
    (∃ e, lastFrame.rcx.expander = some e ∧ e.req.port = .a ∧ e.req.limit ≤ 8192) :=
  ⟨rfl, rfl, rfl, _, rfl, rfl, by decide⟩

theorem witness_QueryDriveAnswered : used.resetLine = false ∧ used.tagInUse .a 255 = false ∧ full.tagInUse .a 3 = true := ⟨rfl, rfl, rfl⟩

/-! ## Witnesses: the library's frames -/

/-- A library command outstanding. -/
def occupied : State := used.setLp { used.lp with outstanding := some .unload }

theorem witness_LibraryArrivalsAreJudged :
    libraryArrival (.setSetting 7 0) = some (9, false) ∧ libraryArrival (.setSetting 6 65535) = some (9, true) ∧ used.Settled ∧ used.resetLine = false ∧
    occupied.Settled ∧ occupied.resetLine = false ∧ occupied.lp.outstanding.isSome = true :=
  ⟨by decide, by decide, calm_settled used_calm, rfl, calm_settled ⟨rfl, rfl, rfl, by decide, rfl⟩, rfl, rfl⟩

/-- The load states that refuse the tag commands. -/
theorem witness_LibraryArrivalsAreJudged_states :
    (∀ x, x ≠ .standby → (inState x used).TakesLibrary ∧ (inState x used).Settled) ∧ (inState .empty used).lsq.state = .empty ∧
    used.dtc.copy = some { type := .dataS, parts := [usedPart], current := true } ∧ layoutValid .dataS [63] = false ∧ layoutValid .dataS [64] = true ∧
    ((sessionA .held 0 used).row 0).state ≠ .none ∧ (sessionA .held 0 used).TakesLibrary ∧ (sessionA .held 0 used).Settled ∧
    full.TakesLibrary ∧ full.Settled ∧ (full.port .a).inService.isSome = true :=
  ⟨fun x h => ⟨⟨rfl, rfl, rfl⟩, calm_settled ⟨rfl, rfl, rfl, h, rfl⟩⟩, rfl, rfl, rfl, rfl, by decide, ⟨rfl, rfl, rfl⟩, calm_settled ⟨rfl, rfl, rfl, by decide, rfl⟩,
    ⟨rfl, rfl, rfl⟩, calm_settled ⟨rfl, rfl, rfl, by decide, rfl⟩, rfl⟩

theorem witness_LibraryQueryAnswered : used.resetLine = false ∧ (8 ≤ 8 ∨ 2 ≤ 1) ∧ ((Port.b = .a ∧ 1 = 0) ∨ (Port.b = .b ∧ 1 = 1)) := by decide

/-- Two new divisors awaiting their responses, the first behind a refusal. -/
def newDivisors : State :=
  used.setLp { used.lp with
    newDivisors := [{ value := 255, ahead := 2 }, { value := 4, ahead := 3 }]
    tx := [{ result := .formatFault, code := 9, detail := .none }, { result := .ok, code := 9, detail := .value 255 }, { result := .ok, code := 9, detail := .value 4 }]
    unsent := some 3 }

/-- A library command answered, its response unsent behind a refusal's. -/
def unsentResponse : State :=
  used.setLp { used.lp with
    tx := [{ result := .formatFault, code := 9, detail := .none }, { result := .ok, code := 4, detail := .none }, { result := .busy, code := 1, detail := .none }]
    unsent := some 2 }

/-- A response unsent with a new divisor and without one, and a partition that the layout does not have. -/
theorem witness_LibraryArrivalsAreJudged_unsent :
    libraryArrival .load = some (1, true) ∧ unsentResponse.Settled ∧ unsentResponse.resetLine = false ∧ unsentResponse.lp.outstanding = none ∧ unsentResponse.lp.unsent = some 2 ∧
    unsentResponse.lp.newDivisors = [] ∧ newDivisors.Settled ∧ newDivisors.resetLine = false ∧ newDivisors.lp.unsent.isSome = true ∧ newDivisors.lp.newDivisors ≠ [] ∧
    used.TakesLibrary ∧ used.Settled ∧ used.lsq.state = .ready ∧ used.partDir (partNumber 1) = none :=
  ⟨rfl, calm_settled ⟨rfl, rfl, rfl, by decide, rfl⟩, rfl, rfl, rfl, rfl, calm_settled ⟨rfl, rfl, rfl, by decide, rfl⟩, rfl, rfl, by decide, used_takes,
    calm_settled used_calm, rfl, by decide⟩

/-- R189: the response that reports a new divisor is unsent, and the next command is BUSY. -/
theorem test_busy_unsent : ((after (after used (.setSetting 6 300)) .load).lp.tx).map (·.result) = [.ok, .busy] ∧
    (after (after (after used (.setSetting 6 300)) .newDivisorEffective) .load).lp.tx = [{ result := .busy, code := 1, detail := .none }] := by decide +kernel

theorem witness_LibraryLineEvents : used.resetLine = false ∧ used.lp.newDivisors = [] ∧
    newDivisors.lp.newDivisors = { value := 255, ahead := 2 } :: [{ value := 4, ahead := 3 }] ∧ newDivisors.lp.unsent = some 3 := ⟨rfl, rfl, rfl, rfl⟩

theorem witness_SettingsAreClamped :
    used.TakesLibrary ∧ used.Settled ∧ used.hcm.meter < 5000000 ∧ used.lsq.state = .ready ∧ used.dtc.copy.isSome = true ∧ used.dtc.reader = none ∧
    used.dtc.pendCheckpoint = none ∧ State.reset.TakesLibrary ∧ State.reset.Settled ∧ State.reset.dtc.copy = none ∧
    50 * 125000 ≤ (used.setHcm { used.hcm with meter := 6250000 }).hcm.meter :=
  ⟨used_takes, calm_settled used_calm, by decide, rfl, rfl, rfl, rfl, ⟨rfl, rfl, rfl⟩, calm_settled ⟨rfl, rfl, rfl, by decide, rfl⟩, rfl, by decide⟩

theorem witness_GrantsTakeEffect : used.TakesLibrary ∧ used.Calm ∧ (used.port .a).sector.length = 7 ∧ (∀ q, used.sessionOf .a = some q →
    some { part := q, right := .readWrite } ∈ (used.port .a).sector.set 6 none) :=
  ⟨used_takes, used_calm, rfl, fun q h => absurd h (by simp [show used.sessionOf .a = none from rfl])⟩

/-- A Grant of READ for logical partition 1 takes the right of a session that appends, with no write in service and with one. -/
theorem witness_GrantsTakeEffect_closes : let s := sessionA .streaming 1 used
    let t := busyA (inHand1 5 (.writeRecord 10) .receiving) s
    s.TakesLibrary ∧ s.Calm ∧ s.sessionOf .a = some 0 ∧ (s.row 0).state.isActive = true ∧
    some { part := 0, right := .readWrite } ∉ (s.port .a).sector.set 0 (some { part := 0, right := .read }) ∧ s.placingFor 0 = false ∧
    (s.port .a).inService = none ∧ s.assemblingOf 0 = none ∧ 0 < (s.row 0).unverified ∧
    t.TakesLibrary ∧ t.Calm ∧ t.sessionOf .a = some 0 ∧ (t.row 0).state.isActive = true ∧ (t.port .a).inService = some (inHand1 5 (.writeRecord 10) .receiving) ∧
    (t.row 0).closeDue ≠ .afterPlacing :=
  ⟨⟨rfl, rfl, rfl⟩, ⟨rfl, rfl, rfl, by decide, rfl⟩, rfl, rfl, by decide, rfl, rfl, by decide, by decide, ⟨rfl, rfl, rfl⟩, ⟨rfl, rfl, rfl, by decide, rfl⟩, rfl, rfl, rfl, by decide⟩

/-- The part in Standby, parked, with nothing to do. -/
def standby : State := inState .standby (used.setMsc { used.msc with motion := .parked })

/-- A state in Standby without a Cut, a turn or work for the transport is settled. -/
theorem idle_settled {s : State} (ha : s.ports.a.cut = false) (hb : s.ports.b.cut = false) (hj : s.job = none)
    (hw : s.portWork .a = none ∧ s.portWork .b = none) : s.Settled := by
  refine ⟨?_, fun p h => absurd (hj.symm.trans h) nofun, fun _ => hw, fun r p h => absurd (hj.symm.trans h) nofun⟩
  intro p h
  cases p
  · exact absurd (ha.symm.trans h) (by decide)
  · exact absurd (hb.symm.trans h) (by decide)

theorem standby_settled : standby.Settled := idle_settled rfl rfl rfl ⟨by decide, by decide⟩

theorem witness_AccessesWaitForTheReader_standby : standby.TakesLibrary ∧ standby.Settled ∧ standby.lsq.state = .standby ∧
    (standby.partDir (partNumber 0)).isSome = true ∧ standby.dtc.copy.isSome = true ∧ (∀ r, (standby.row r).state = .none) ∧ standby.ports.a.inService = none ∧
    standby.ports.b.inService = none :=
  ⟨⟨rfl, rfl, rfl⟩, standby_settled, rfl, rfl, rfl, by decide, rfl, rfl⟩

theorem witness_AccessesWaitForTheReader : used.TakesLibrary ∧ used.Calm ∧ used.lsq.state = .ready ∧ (used.partDir (partNumber 0)).isSome = true ∧
    layoutValid .dataS [62, 2] = true ∧ (∀ r, (used.row r).state = .none) ∧ used.ports.a.inService = none ∧ used.ports.b.inService = none :=
  ⟨used_takes, used_calm, rfl, rfl, rfl, by decide, rfl, rfl⟩

/-! ## Witnesses: host commands taken into service -/

theorem witness_PositioningBecomesWork : used.Serves .a ∧ used.Calm ∧ used.sessionOf .a = none ∧ used.Resolves .a 1 grant1 usedPart ∧
    used.context .a = some bot ∧ used.Resolves .a bot.logical grant1 usedPart ∧ (used.setContext .a none).Serves .a ∧ (used.setContext .a none).Calm ∧
    (used.setContext .a none).context .a = none ∧ (used.setContext .a none).Resolves .a 1 grant1 usedPart :=
  ⟨used_serves .a, used_calm, rfl, used_resolves, rfl, used_resolves, ⟨rfl, rfl, rfl, rfl, rfl, rfl, rfl⟩, ⟨rfl, rfl, rfl, by decide, rfl⟩, rfl, rfl, rfl⟩

/-- The four cases of a grant: missing, outside the layout, and with READ alone. -/
def otherGrants : State :=
  used.setPort .a { quiet with sector := [some { part := 0, right := .read }, some { part := 3, right := .read }, none, none, none, none, none] }

theorem witness_CommandsAreTakenAndResolved_grants :
    otherGrants.Serves .a ∧ otherGrants.Calm ∧ otherGrants.sessionOf .a = none ∧ otherGrants.grantEntry .a 7 = none ∧
    otherGrants.grantEntry .a 2 = some { part := 3, right := .read } ∧ otherGrants.partDir 3 = none ∧ otherGrants.context .a = some bot ∧
    otherGrants.Resolves .a bot.logical { part := 0, right := .read } usedPart :=
  ⟨⟨rfl, rfl, rfl, rfl, rfl, rfl, rfl⟩, ⟨rfl, rfl, rfl, by decide, rfl⟩, rfl, rfl, rfl, rfl, rfl, rfl, rfl⟩

/-- A waiting command, with the attention set and load state given. -/
def waitingA (x : LoadState) (a : Attention) (c : HostCmd) : State :=
  (inState x used).setPort .a { quiet with waiting := [⟨5, c⟩], attention := a }

theorem witness_CommandsAreTakenAndResolved (x : LoadState) (a : Attention) (h : x ≠ .standby) :
    let s := waitingA x a (.locate 1 0)
    (s.port .a).inService = none ∧ s.layOutActive = false ∧ (s.port .a).waiting = [⟨5, .locate 1 0⟩] ∧ s.Calm ∧ s.sessionOf .a = none ∧ s.lsq.state = x ∧
    (s.port .a).attention = a ∧ s.Resolves .a 1 grant1 usedPart :=
  ⟨rfl, rfl, rfl, ⟨rfl, rfl, rfl, h, rfl⟩, rfl, rfl, rfl, rfl, rfl⟩

/-- A Failed row of port A whose fault awaits its report, and a Sync that waits. -/
def failedRow : State :=
  let f : DeferredFault := { part := 0, firstLost := 3000, reason := .tagFault }
  let s := used.setRow 0 { rowA .failed 0 with fault := some f }
  s.setPort .a { quiet with waiting := [⟨5, .sync⟩], attention := Attention.empty.addFault f }

theorem witness_CommandsAreTakenAndResolved_failed : let s := failedRow
    (s.port .a).inService = none ∧ s.layOutActive = false ∧ (s.port .a).waiting = [⟨5, .sync⟩] ∧ s.Calm ∧ s.sessionOf .a = some 0 ∧
    (∀ x, s.holds .a x = true → x = 0) ∧ (s.row 0).state = .failed ∧ (∃ f, (s.port .a).attention.deferred = some f ∧ f.part = 0) ∧ s.lsq.state = .ready :=
  ⟨rfl, rfl, rfl, ⟨rfl, rfl, rfl, by decide, rfl⟩, rfl, by decide, rfl, ⟨_, rfl, rfl⟩, rfl⟩

/-- R19, R109: a closure that waits for a record being placed is not put off to the end of a later write. -/
theorem test_close_after_placing :
    (((busyA (inHand1 5 (.writeRecord 10) (.waitClose 0)) (used.setRow 0 { rowA .streaming 1 with closeDue := .afterPlacing })).setSbm
      { used.sbm with placing := { a := some { row := 0, scheme := .stored, raw := 1, begun := true }, b := none } }).requestClose 0 true).row 0
      = { rowA .streaming 1 with closeDue := .afterPlacing } := by decide

theorem witness_SyncWaitsForTheSession : used.Serves .a ∧ used.Calm ∧ used.sessionOf .a = none ∧ (sessionA .closing 1 used).Serves .a ∧
    (sessionA .closing 1 used).Calm ∧ (sessionA .closing 1 used).sessionOf .a = some 0 ∧ ((sessionA .closing 1 used).row 0).state.isOpen = true ∧
    0 < ((sessionA .closing 1 used).row 0).unverified ∧ (sessionA .closing 1 used).assemblingOf 0 = none :=
  ⟨used_serves .a, used_calm, rfl, ⟨rfl, rfl, rfl, rfl, rfl, rfl, rfl⟩, ⟨rfl, rfl, rfl, by decide, rfl⟩, rfl, rfl, by decide, by decide⟩

/-- A command in service at the other port. -/
def otherBusy : State := used.setPort .b { quiet with inService := some (inHand1 0 .seekEnd .tape) }

theorem witness_ParkAndUnloadRequestBegin : used.Serves .a ∧ used.Calm ∧ used.sessionOf .a = none ∧ (inState .waking used).Serves .a ∧ (inState .waking used).Calm ∧
    (inState .waking used).lsq.state = .waking ∧ used.lsq.state = .ready ∧ otherBusy.Serves .a ∧ otherBusy.Calm ∧
    (otherBusy.port (otherPort .a)).inService.isSome = true ∧ (used.port (otherPort .a)).waiting = [] ∧ (used.port (otherPort .a)).inService = none ∧
    (used.port (otherPort .a)).attention.isEmpty = true ∧ (∀ r, (used.row r).unverified = 0) ∧ (∀ r, used.drainEligible r = false) ∧
    used.rdu.fills = { a := .none, b := .none } ∧ used.libraryBusy = false ∧ used.msc.turn = none ∧ used.msc.travel = 0 ∧ used.hcm.openRecord = none ∧
    used.dtc.copy.isSome = true ∧ used.dtc.pendCheckpoint = none :=
  ⟨used_serves .a, used_calm, rfl, ⟨rfl, rfl, rfl, rfl, rfl, rfl, rfl⟩, ⟨rfl, rfl, rfl, by decide, rfl⟩, rfl, rfl, ⟨rfl, rfl, rfl, rfl, rfl, rfl, rfl⟩,
    ⟨rfl, rfl, rfl, by decide, rfl⟩, rfl, rfl, rfl, rfl, by decide, by decide, rfl, rfl, rfl, rfl, rfl, rfl, rfl⟩

/-- A Park of a session's holder, and the states that decline it: a segment unverified, a fill posted, a library access still in flight. -/
def heldA : State := sessionA .held 0 used
def filling : State := used.setRdu { used.rdu with fills := { a := .posted 0 5, b := .none } }
def accessInFlight : State := used.setDtc { used.dtc with reader := some { kind := .library (.readAttr 1), snapshot := none, timeout := 2, waiters := [], cutSince := false } }

theorem witness_ParkAndUnloadRequestBegin_session : heldA.Serves .a ∧ heldA.Calm ∧ heldA.sessionOf .a = some 0 ∧ (heldA.port .b).inService = none ∧
    (∀ r, (heldA.row r).unverified = 0) ∧ (∀ r, heldA.drainEligible r = false) ∧ heldA.libraryBusy = false ∧ heldA.msc.turn = none ∧
    (sessionA .held 1 used).Serves .a ∧ 0 < ((sessionA .held 1 used).row 0).unverified ∧ filling.Serves .a ∧ filling.rdu.fills.get .a ≠ .none ∧
    accessInFlight.Serves .a ∧ accessInFlight.libraryBusy = true :=
  ⟨⟨rfl, rfl, rfl, rfl, rfl, rfl, rfl⟩, ⟨rfl, rfl, rfl, by decide, rfl⟩, rfl, rfl, by decide, by decide, rfl, rfl, ⟨rfl, rfl, rfl, rfl, rfl, rfl, rfl⟩, by decide,
    ⟨rfl, rfl, rfl, rfl, rfl, rfl, rfl⟩, by decide, ⟨rfl, rfl, rfl, rfl, rfl, rfl, rfl⟩, rfl⟩

theorem witness_ParkAndUnloadRequestBegin_unload : used.Serves .a ∧ used.Calm ∧ used.sessionOf .a = none ∧ otherBusy.Serves .a ∧ otherBusy.Calm ∧ otherBusy.sessionOf .a = none ∧
    (otherBusy.port (otherPort .a)).inService.isSome = true ∧ used.sessionOf .b = none ∧ (used.port .b).waiting = [] ∧ (used.port .b).inService = none ∧
    used.libraryBusy = false ∧ used.lsq.holder = .nobody ∧ (inState .waking used).Serves .a ∧ (inState .waking used).lsq.state = .waking ∧
    used.lsq.state = .ready ∧ (∀ r, (used.row r).state = .none) ∧ used.rdu.scans = { a := none, b := none } ∧ used.msc.turn = none :=
  ⟨used_serves .a, used_calm, rfl, ⟨rfl, rfl, rfl, rfl, rfl, rfl, rfl⟩, ⟨rfl, rfl, rfl, by decide, rfl⟩, rfl, rfl, rfl, rfl, rfl, rfl, rfl,
    ⟨rfl, rfl, rfl, rfl, rfl, rfl, rfl⟩, rfl, rfl, by decide, rfl, rfl⟩

/-- A session of port B in Standby, so that an Unload Request of port A is refused. -/
def standbyHeld : State := standby.setRow 0 { rowA .held 0 with holder := some .b }

theorem witness_ParkAndUnloadRequestBegin_standby : standby.Serves .a ∧ standby.Settled ∧ standby.lsq.state = .standby ∧ standby.sessionOf .b = none ∧
    (standby.port .b).waiting = [] ∧ (standby.port .b).inService = none ∧ standby.libraryBusy = false ∧ standby.lsq.holder = .nobody ∧
    standbyHeld.Serves .a ∧ standbyHeld.Settled ∧ standbyHeld.lsq.state = .standby ∧ (standbyHeld.sessionOf .b).isSome = true :=
  ⟨⟨rfl, rfl, rfl, rfl, rfl, rfl, rfl⟩, standby_settled, rfl, rfl, rfl, rfl, rfl, rfl, ⟨rfl, rfl, rfl, rfl, rfl, rfl, rfl⟩,
    idle_settled rfl rfl rfl ⟨by decide, by decide⟩, rfl, rfl⟩

/-- The context at the committed end. -/
def atEnd : State := used.setContext .a (some { logical := 1, object := 3000, marks := 2, atEnd := true })

theorem witness_ReadsAndScansBegin : used.Serves .a ∧ used.Calm ∧ used.sessionOf .a = none ∧ used.context .a = some bot ∧
    used.Resolves .a bot.logical grant1 usedPart ∧ bot.object < usedPart.objects ∧ lookupObject used.sbm.slots 0 0 = none ∧
    atEnd.Serves .a ∧ atEnd.Calm ∧ atEnd.sessionOf .a = none ∧ atEnd.context .a = some ⟨1, 3000, 2, true⟩ ∧ atEnd.Resolves .a 1 grant1 usedPart ∧ usedPart.objects ≤ 3000 :=
  ⟨used_serves .a, used_calm, rfl, rfl, used_resolves, by decide, by decide, ⟨rfl, rfl, rfl, rfl, rfl, rfl, rfl⟩, ⟨rfl, rfl, rfl, by decide, rfl⟩, rfl, rfl, ⟨rfl, rfl⟩, by decide⟩

/-- A CACHED slot of port A with segment `n`, whose first entry describes object 0. -/
def cachedWith (n : Nat) (l : List Entry) (payload : List Byte) : Slot :=
  { Slot.free with
    state := .cached, owner := .port .a, entries := l, payload := payload, lastUse := some 0
    header := { blankHeader with number := n, firstObject := some 0, marksBefore := some 0, entryCount := l.length, payloadLength := payload.length } }

/-- The cache holds the object's beginning, described by the entry given. -/
theorem witness_ReadsAndScansBegin_cached (e : Entry) (he : beginsObject e = true) : let s := withSlots [cachedWith 0 [e] [7]] used
    s.Serves .a ∧ s.Calm ∧ s.sessionOf .a = none ∧ s.context .a = some bot ∧ s.Resolves .a bot.logical grant1 usedPart ∧ bot.object < usedPart.objects ∧
    lookupObject s.sbm.slots 0 bot.object = some 0 ∧ beginsAt (s.slot 0) bot.object = some 0 ∧ s.job ≠ some (.read .a) ∧ (s.slot 0).entries[0]? = some e ∧
    lookupSlot s.sbm.slots 0 ((s.slot 0).header.number + 1) = none := by
  refine ⟨⟨rfl, rfl, rfl, rfl, rfl, rfl, rfl⟩, ⟨rfl, rfl, rfl, nofun, rfl⟩, rfl, rfl, ⟨rfl, rfl⟩, by decide, ?_, ?_, nofun, rfl, ?_⟩
  · cases e <;> first | rfl | cases he
  · cases e <;> first | rfl | cases he
  · rfl

theorem test_cached_entries : beginsObject .mark = true ∧ beginsObject (.whole 1 1 .stored) = true ∧ beginsObject (.first 2 1 .stored) = true := by decide

/-- A First and its Last in two slots. -/
theorem witness_ReadsAndScansBegin_spans : let s := withSlots [cachedWith 0 [.first 2 1 .stored] [7], cachedWith 1 [.last 1 .stored] [8]] used
    s.Serves .a ∧ s.Calm ∧ s.sessionOf .a = none ∧ s.context .a = some bot ∧ s.Resolves .a bot.logical grant1 usedPart ∧
    lookupObject s.sbm.slots 0 bot.object = some 0 ∧ beginsAt (s.slot 0) bot.object = some 0 ∧ (s.slot 0).entries[0]? = some (.first 2 1 .stored) ∧
    lookupSlot s.sbm.slots 0 ((s.slot 0).header.number + 1) = some 1 ∧ (s.slot 1).header.firstObject = some bot.object ∧
    (s.slot 1).entries.head? = some (.last 1 .stored) :=
  ⟨⟨rfl, rfl, rfl, rfl, rfl, rfl, rfl⟩, ⟨rfl, rfl, rfl, by decide, rfl⟩, rfl, rfl, ⟨rfl, rfl⟩, by decide, by decide, rfl, by decide, rfl, rfl⟩

/-- The context Lost at port A. -/
def lostA : State := used.setContext .a none

theorem witness_ReadsAndScansBegin_lost : lostA.Serves .a ∧ lostA.Calm ∧ lostA.sessionOf .a = none ∧ lostA.context .a = none ∧ (1048576 : Nat) ≤ 1048576 :=
  ⟨⟨rfl, rfl, rfl, rfl, rfl, rfl, rfl⟩, ⟨rfl, rfl, rfl, by decide, rfl⟩, rfl, rfl, by decide⟩

/-- A partition that may not be written: locked, held by the other port, or with a clean call at Required. -/
def locked : State := readyWith { usedPart with locked := true }
def heldByB : State := used.setRow 0 { rowA .closing 1 with holder := some .b }
def dirty : State := used.setHcm { used.hcm with level := .required }

theorem witness_TruncatesBegin : used.Serves .a ∧ used.Calm ∧ used.sessionOf .a = none ∧ used.context .a = some bot ∧
    used.Resolves .a bot.logical grant1 usedPart ∧ grant1.right = .readWrite ∧ used.writeProtected 0 = false ∧ (used.row 0).state = .none ∧
    used.hcm.level ≠ .required ∧ bot.object < usedPart.objects ∧ used.sbm.requests = [] ∧ slotForWriting used.sbm.slots = some 0 ∧
    locked.writeProtected 0 = true ∧ locked.Resolves .a 1 grant1 { usedPart with locked := true } ∧ (heldByB.row 0).state ≠ .none ∧ heldByB.writeProtected 0 = false ∧
    heldByB.sessionOf .a = none ∧ dirty.hcm.level = .required :=
  ⟨used_serves .a, used_calm, rfl, rfl, used_resolves, rfl, rfl, rfl, by decide, by decide, rfl, by decide, rfl, ⟨rfl, rfl⟩, by decide, rfl, rfl, rfl⟩

/-- A stale cartridge, at whose end a Truncate cuts nothing. -/
def staleEnd : State := atEnd.setDtc { atEnd.dtc with copy := some { type := .dataS, parts := [usedPart], current := false } }

theorem witness_TruncatesBegin_atEnd : staleEnd.Serves .a ∧ staleEnd.Calm ∧ staleEnd.sessionOf .a = none ∧ staleEnd.context .a = some ⟨1, 3000, 2, true⟩ ∧
    staleEnd.Resolves .a 1 grant1 usedPart ∧ usedPart.objects ≤ 3000 ∧ staleEnd.dtc.tagBehind = false ∧ staleEnd.copyCurrent = false ∧
    staleEnd.writeProtected 0 = false ∧ (staleEnd.row 0).state = .none ∧ staleEnd.hcm.level ≠ .required :=
  ⟨⟨rfl, rfl, rfl, rfl, rfl, rfl, rfl⟩, ⟨rfl, rfl, rfl, by decide, rfl⟩, rfl, rfl, ⟨rfl, rfl⟩, by decide, rfl, rfl, rfl, rfl, by decide⟩

/-- The context in a logical partition that no grant names, and in one outside the layout. -/
def ungranted (l : Nat) : State := otherGrants.setContext .a (some { bot with logical := l })

theorem witness_TruncatesBegin_checks : lostA.Serves .a ∧ lostA.Calm ∧ lostA.sessionOf .a = none ∧ lostA.context .a = none ∧
    (ungranted 7).Serves .a ∧ (ungranted 7).Calm ∧ (ungranted 7).sessionOf .a = none ∧ (ungranted 7).context .a = some ⟨7, 0, 0, false⟩ ∧ (ungranted 7).grantEntry .a 7 = none ∧
    (ungranted 2).Serves .a ∧ (ungranted 2).context .a = some ⟨2, 0, 0, false⟩ ∧ (ungranted 2).grantEntry .a 2 = some { part := 3, right := .read } ∧
    (ungranted 2).partDir 3 = none ∧ (ungranted 1).Serves .a ∧ (ungranted 1).Resolves .a 1 { part := 0, right := .read } usedPart :=
  ⟨⟨rfl, rfl, rfl, rfl, rfl, rfl, rfl⟩, ⟨rfl, rfl, rfl, by decide, rfl⟩, rfl, rfl, ⟨rfl, rfl, rfl, rfl, rfl, rfl, rfl⟩, ⟨rfl, rfl, rfl, by decide, rfl⟩, rfl, rfl, rfl,
    ⟨rfl, rfl, rfl, rfl, rfl, rfl, rfl⟩, rfl, rfl, rfl, ⟨rfl, rfl, rfl, rfl, rfl, rfl, rfl⟩, rfl, rfl⟩

/-- A Truncate of port A at object 2 whose copy of segment 0 is being read into slot 0. -/
def truncating : State :=
  let s := turning (.truncate .a) .reading .streaming (busyA { inHand1 5 .truncate .tape with start := some { bot with object := 2 } } used)
  let s := withSlots [{ Slot.free with state := .assembling, owner := .row 0, header := blankHeader, copying := some .a, lane := 0, offset := 0 }] s
  (s.setContext .a (some { bot with object := 2 })).setRdu
    { s.rdu with acc := some { part := 0, number := 0, attempt := some 0, lane := 0, offset := 0, readable := 0, retries := 0, passed := 0, forScan := false, slot := some 0, content := none } }

/-- Segment 0 with four marks. -/
def fourMarks : Segment :=
  { header := { blankHeader with number := 0, firstObject := some 0, marksBefore := some 0, entryCount := 4 }, entries := [.mark, .mark, .mark, .mark], payload := [] }

theorem witness_TruncatesBegin_completes : truncating.Calm ∧ truncating.msc.activity = .reading ∧ (∃ a, truncating.rdu.acc = some a ∧ a.forScan = false ∧ a.attempt = some 0 ∧
    a.part = 0 ∧ 14 ≤ stripeCount (a.readable ||| 0x3FFF)) ∧ truncating.msc.turn = some { job := .truncate .a, written := 0, stopping := false, leaving := none } ∧
    (∃ m, (truncating.port .a).inService = some m ∧ m.cmd = .truncate ∧ m.part = some 0) ∧ truncating.context .a = some { bot with object := 2 } ∧
    truncating.contextIn .a 0 = true ∧ truncating.partDir 0 = some usedPart ∧ truncating.copySlot .a = some 0 ∧ truncating.writeProtected 0 = false ∧
    (truncating.row 0).state = .none ∧ truncating.sessionOf .a = none ∧ truncating.assemblingOf 0 = none ∧ (fourMarks.entries.take 2).length < 512 ∧
    truncating.context .b = some bot ∧ truncating.contextIn .b 0 = true :=
  ⟨⟨rfl, rfl, rfl, by decide, rfl⟩, rfl, ⟨_, rfl, rfl, rfl, rfl, by decide⟩, rfl, ⟨_, rfl, rfl, rfl⟩, rfl, rfl, rfl, by decide, rfl, rfl, rfl, by decide, by decide, rfl, rfl⟩

theorem witness_WriteRecordsOpen_lost : lostA.Serves .a ∧ lostA.Calm ∧ lostA.sessionOf .a = none ∧ lostA.context .a = none ∧ (1 : Nat) ≤ 1048576 ∧ (255 : Nat) ≤ 255 :=
  ⟨⟨rfl, rfl, rfl, rfl, rfl, rfl, rfl⟩, ⟨rfl, rfl, rfl, by decide, rfl⟩, rfl, rfl, by decide, by decide⟩

theorem witness_WriteRecordsOpen : ready.Serves .a ∧ ready.Calm ∧ ready.sessionOf .a = none ∧ ready.context .a = some bot ∧
    ready.Resolves .a bot.logical grant1 (freshPart 64) ∧ ready.writeProtected 0 = false ∧ (ready.row 0).state = .none ∧ bot.object = (freshPart 64).objects ∧
    ready.hcm.level ≠ .required ∧ 96 + (ready.sbm.slots.countP (fun x => x.ofSession 0) + (1048576 + 262071) / 262072) ≤ ready.remaining 0 ∧ ready.assemblingOf 0 = none ∧
    ready.sbm.requests = [] ∧ slotForWriting ready.sbm.slots = some 0 ∧ bot.object ≠ usedPart.objects ∧ locked.writeProtected 0 = true ∧ (heldByB.row 0).state ≠ .none ∧
    dirty.hcm.level = .required :=
  ⟨ready_serves .a, ready_calm, rfl, rfl, ⟨rfl, rfl⟩, rfl, rfl, rfl, by decide, by decide, by decide, rfl, by decide, by decide, rfl, by decide, rfl⟩

/-- A partition filled to its hard reserve. -/
def fullPart : PartDir := { freshPart 2 with used := 94464, segments := 1, index := [{ lane := 0, firstSegment := 0, firstObject := 0, marksBefore := 0 }] }

theorem witness_WriteRecordsOpen_full : (readyWith fullPart).Serves .a ∧ (readyWith fullPart).Calm ∧ (readyWith fullPart).sessionOf .a = none ∧
    (readyWith fullPart).context .a = some bot ∧ (readyWith fullPart).Resolves .a 1 grant1 fullPart ∧ (readyWith fullPart).writeProtected 0 = false ∧
    ((readyWith fullPart).row 0).state = .none ∧ bot.object = fullPart.objects ∧ (readyWith fullPart).hcm.level ≠ .required ∧
    (readyWith fullPart).remaining 0 < 96 + ((readyWith fullPart).sbm.slots.countP (fun x => x.ofSession 0) + (1 + 262071) / 262072) ∧ (readyWith fullPart).assemblingOf 0 = none :=
  ⟨⟨rfl, rfl, rfl, rfl, rfl, rfl, rfl⟩, ⟨rfl, rfl, rfl, by decide, rfl⟩, rfl, rfl, ⟨rfl, rfl⟩, rfl, rfl, rfl, by decide, by decide, by decide⟩

/-- A slot that assembles segment 0 of partition 0, with the entries given. -/
def assembling (l : List Entry) (payload : List Byte) : Slot :=
  { Slot.free with state := .assembling, owner := .row 0, entries := l, payload := payload, header := { blankHeader with entryCount := l.length, payloadLength := payload.length } }

/-- A session of port A with an empty assembling slot. -/
def appending : State := withSlots [assembling [] []] ((ready.setRow 0 { rowA .held 0 with nextSegment := 1 }))

/-- The session appends to a partition filled to its hard reserve, with an empty assembling slot or none. -/
def appendingFull (slot : Bool) : State :=
  withSlots (if slot then [assembling [] []] else []) ((readyWith fullPart).setRow 0 { rowA .held 0 with nextSegment := 2 })

theorem witness_WriteRecordsOpen_continues (b : Bool) : let s := appendingFull b
    s.Serves .a ∧ s.Calm ∧ s.sessionOf .a = some 0 ∧ s.context .a = some bot ∧ s.Resolves .a bot.logical grant1 fullPart ∧ (s.row 0).state.isActive = true ∧
    (s.row 0).closeDue = .no ∧ bot.object = (s.row 0).firstObject + (s.row 0).admitted ∧ (s.remaining 0 < 96 + (s.sbm.slots.countP (fun x => x.ofSession 0) + 1)) ∧
    (b = false → s.assemblingOf 0 = none ∧ (1 + 262071) / 262072 = 1) ∧
    (b = true → s.assemblingOf 0 = some 0 ∧ (s.slot 0).entries = [] ∧ 9 ≤ (s.slot 0).room ∧ ¬ 8 + 1048576 ≤ (s.slot 0).room ∧
      s.remaining 0 < 96 + (s.sbm.slots.countP (fun x => x.ofSession 0) + (1048576 + 8 - (s.slot 0).room + 262071) / 262072)) := by
  cases b
  · exact ⟨⟨rfl, rfl, rfl, rfl, rfl, rfl, rfl⟩, ⟨rfl, rfl, rfl, by decide, rfl⟩, rfl, rfl, ⟨rfl, rfl⟩, rfl, rfl, rfl, by decide, by decide, nofun⟩
  · exact ⟨⟨rfl, rfl, rfl, rfl, rfl, rfl, rfl⟩, ⟨rfl, rfl, rfl, by decide, rfl⟩, rfl, rfl, ⟨rfl, rfl⟩, rfl, rfl, rfl, by decide, nofun, by decide⟩

theorem witness_MarksAreWritten : appending.Serves .a ∧ appending.Calm ∧ appending.context .a = some bot ∧ appending.Resolves .a 1 grant1 (freshPart 64) ∧
    appending.sessionOf .a = some 0 ∧ (appending.row 0).state.isActive = true ∧ bot.object = (appending.row 0).firstObject + (appending.row 0).admitted ∧
    appending.admits 0 (appending.newSlots 0 (.writeMarks 255 false)) = true ∧ appending.assemblingOf 0 = some 0 ∧ (appending.slot 0).entries.length + 255 < 512 ∧
    8 * 255 + 8 ≤ (appending.slot 0).room ∧ (appending.port .a).options.verified = false ∧ (appending.row 0).closeDue = .no ∧ appending.placingFor 0 = false ∧
    appending.dtc.copy.isSome = true ∧ appending.dtc.pendCheckpoint = none :=
  ⟨⟨rfl, rfl, rfl, rfl, rfl, rfl, rfl⟩, ⟨rfl, rfl, rfl, by decide, rfl⟩, rfl, ⟨rfl, rfl⟩, rfl, rfl, rfl, by decide, by decide, by decide, by decide, rfl, rfl, rfl, rfl, rfl⟩

theorem witness_HoldersWorkClosesTheSession (x : RowState) (h : x = .streaming ∨ x = .held) : let s := sessionA x 1 used
    s.Serves .a ∧ s.Calm ∧ s.sessionOf .a = some 0 ∧ ((s.row 0).state = .streaming ∨ (s.row 0).state = .held) ∧ s.assemblingOf 0 = none ∧
    0 < (s.row 0).unverified ∧ s.placingFor 0 = false ∧ s.context .a = some bot ∧ s.Resolves .a bot.logical grant1 usedPart :=
  ⟨⟨rfl, rfl, rfl, rfl, rfl, rfl, rfl⟩, ⟨rfl, rfl, rfl, nofun, rfl⟩, rfl, h, by cases x <;> decide, by cases x <;> decide, rfl, rfl, ⟨rfl, rfl⟩⟩

/-- A holder whose grant gives READ alone since its session opened, with its context below the end. -/
theorem witness_HoldersWorkClosesTheSession_read : let s := sessionA .held 1 otherGrants
    s.Serves .a ∧ s.Calm ∧ s.sessionOf .a = some 0 ∧ (s.row 0).state = .held ∧ s.assemblingOf 0 = none ∧ 0 < (s.row 0).unverified ∧ s.placingFor 0 = false ∧
    s.context .a = some bot ∧ s.Resolves .a 1 { part := 0, right := .read } usedPart :=
  ⟨⟨rfl, rfl, rfl, rfl, rfl, rfl, rfl⟩, ⟨rfl, rfl, rfl, by decide, rfl⟩, rfl, rfl, by decide, by decide, rfl, rfl, ⟨rfl, rfl⟩⟩

/-! ## Witnesses: records in and out -/

/-- A Write Record of ten bytes whose first four have arrived. -/
def receiving : State :=
  let s := busyA (inHand1 5 (.writeRecord 10) .receiving) appending
  (s.setPort .a { s.port .a with credit := some 10 }).setRcx { s.rcx with intake := { a := .receiving 10 [1, 2, 3, 4], b := .empty } }

theorem witness_RecordsReachThePackingEngine : receiving.resetLine = false ∧ receiving.Calm ∧
    (receiving.port .a).inService = some (inHand1 5 (.writeRecord 10) .receiving) ∧ (receiving.port .a).credit.isSome = true ∧
    receiving.rcx.intake.get .a = .receiving 10 [1, 2, 3, 4] ∧ (5 : Nat) ≠ 6 :=
  ⟨rfl, ⟨rfl, rfl, rfl, by decide, rfl⟩, rfl, rfl, rfl, by decide⟩

/-- The bytes of a counter, low byte and high byte in turn, of which no three recur soon. -/
def counting (i : Nat) : Byte := BitVec.ofNat 8 (if i % 2 = 0 then i / 2 else 128 + i / 512 % 128)

/-- A record of `n` such bytes, which packing does not shorten. -/
def countUp (n : Nat) : List Byte := (List.range n).map counting

theorem countUp_noRepeat (n : Nat) : Laws.NoRepeat (countUp n) := by
  intro j d h1 h2 hj hl
  have hn : j + 2 < n := by simpa [countUp] using hl
  have hg : ∀ i, i < n → (countUp n)[i]? = some (counting i) := fun i hi => by simp [countUp, hi]
  have hc : ∀ a b, counting a = counting b → (if a % 2 = 0 then a / 2 else 128 + a / 512 % 128) % 256 = (if b % 2 = 0 then b / 2 else 128 + b / 512 % 128) % 256 := by
    intro a b h; simpa [counting] using congrArg BitVec.toNat h
  rintro ⟨e0, e1, e2⟩
  rw [hg _ (by omega), hg _ (by omega)] at e0 e1 e2
  have e0 := hc _ _ (Option.some.inj e0)
  have e1 := hc _ _ (Option.some.inj e1)
  have e2 := hc _ _ (Option.some.inj e2)
  obtain ⟨k, rfl⟩ : ∃ k, j = k + d := ⟨j - d, by omega⟩
  rw [show k + d - d = k by omega] at e0
  rw [show k + d + 1 - d = k + 1 by omega] at e1
  rw [show k + d + 2 - d = k + 2 by omega] at e2
  have hw : ∀ x, (128 + x % 128) % 256 = 128 + x % 128 := fun x => by omega
  have hs : ∀ x, x % 2 = 1 → (x + 2) / 512 = x / 512 ∨ ((x + 1) / 2) % 256 = 0 := fun x h => by omega
  rcases Nat.mod_two_eq_zero_or_one k with hk | hk <;> rcases Nat.mod_two_eq_zero_or_one (k + d) with hd | hd
  · rw [if_pos hd, if_pos hk] at e0
    rw [if_neg (by omega), if_neg (by omega)] at e1
    omega
  · rw [if_neg (by omega), if_pos hk] at e0
    rw [if_pos (by omega), if_neg (by omega)] at e1
    rw [if_neg (by omega), if_pos (by omega)] at e2
    rw [hw] at e0 e1 e2
    rcases hs (k + d) hd with h | h
    · rw [h] at e2; omega
    · rw [h] at e1; omega
  · rw [if_pos hd, if_neg (by omega)] at e0
    rw [if_neg (by omega), if_pos (by omega)] at e1
    rw [if_pos (by omega), if_neg (by omega)] at e2
    rw [hw] at e0 e1 e2
    rcases hs k hk with h | h
    · rw [h] at e2; omega
    · rw [h] at e1; omega
  · rw [if_neg (by omega), if_neg (by omega)] at e0
    rw [if_pos (by omega), if_pos (by omega)] at e1
    omega

/-- The record of ten bytes, whole. -/
def ten : List Byte := [1, 2, 3, 4, 5, 6, 7, 8, 9, 10]

/-- The record waiting for the packing engine. -/
def queued : State :=
  (busyA (inHand1 5 (.writeRecord 10) .compressing) appending).setRcx { appending.rcx with intake := { a := .waiting ten, b := .empty }, packQueue := [.a] }

theorem witness_RecordsReachThePackingEngine_takes : queued.rcx.packer = none ∧ queued.rcx.packQueue = [.a] ∧ queued.rcx.intake.get .a = .waiting ten ∧
    ready.rcx.packQueue = [] := ⟨rfl, rfl, rfl, rfl⟩

/-- The record in the packing engine, the session that wrote it given up or not. -/
def packing (lost : Bool) (s : State) : State :=
  (busyA { inHand1 5 (.writeRecord 10) .compressing with lost := lost } s).setRcx
    { s.rcx with intake := { a := .packing ten, b := .empty }, packer := some { port := .a, history := [], tokens := [], bits := 0 } }

theorem witness_PackedRecordsArePlaced : let s := packing false appending
    s.Calm ∧ s.rcx.intake.get .a = .packing ten ∧ (s.port .a).inService = some (inHand1 5 (.writeRecord 10) .compressing) ∧ s.sessionOf .a = some 0 ∧
    (s.row 0).state.isActive = true ∧ s.assemblingOf 0 = some 0 ∧ (s.slot 0).entries.length + 1 < 512 ∧ (storedForm ten).2.length + 16 ≤ (s.slot 0).room ∧
    (storedForm ten).2.length ≤ 262072 ∧ (s.row 0).closeDue = .no ∧ s.sbm.placing = { a := none, b := none } ∧
    (∀ y, s.context .a = some y → (s.grantEntry .a y.logical).map (·.part) = some 0) :=
  ⟨⟨rfl, rfl, rfl, by decide, rfl⟩, rfl, rfl, rfl, rfl, by decide, by decide, by decide +kernel, by decide +kernel, rfl, rfl, fun y h => by
    cases (Option.some.inj h : bot = y); rfl⟩

theorem witness_PackedRecordsArePlaced_lost : let s := packing true ready
    s.Calm ∧ s.rcx.packer.isSome = true ∧ s.rcx.intake.get .a = .packing ten ∧ (∀ q, s.sessionOf .a = some q → (s.row q).state.isActive = false) :=
  ⟨⟨rfl, rfl, rfl, by decide, rfl⟩, rfl, rfl, fun q h => absurd h (by simp [show (packing true ready).sessionOf .a = none from rfl])⟩

/-- A record in the packing engine, for a session whose assembling slot has the room given. -/
def splitting (room : Nat) (b : List Byte) : State :=
  let s := withSlots [assembling [.mark] (List.replicate (262072 - room) 0)] (ready.setRow 0 { rowA .held 0 with nextSegment := 1 })
  (busyA (inHand1 5 (.writeRecord b.length) .compressing) s).setRcx
    { s.rcx with intake := { a := .packing b, b := .empty }, packer := some { port := .a, history := [], tokens := [], bits := 0 } }

theorem splitting_room (room : Nat) (b : List Byte) (h : room ≤ 262072) : ((splitting room b).slot 0).room = room := by
  show 262144 - 64 - 8 * 1 - (List.replicate (262072 - room) (0 : Byte)).length = room
  rw [List.length_replicate]; omega

theorem witness_PackedRecordsArePlaced_split (room : Nat) (b : List Byte) : let s := splitting room b
    s.Calm ∧ s.rcx.packer.isSome = true ∧ s.rcx.intake.get .a = .packing b ∧
    (∃ c, (s.port .a).inService = some c ∧ c.cmd = .writeRecord b.length ∧ c.part = some 0 ∧ c.lost = false ∧ c.verified = false) ∧ s.sessionOf .a = some 0 ∧
    (s.row 0).state.isActive = true ∧ s.assemblingOf 0 = some 0 ∧ (s.slot 0).entries = [.mark] ∧ (s.row 0).closeDue = .no ∧ s.sbm.placing = { a := none, b := none } ∧
    s.sbm.requests = [] ∧ (∀ y, s.context .a = some y → (s.grantEntry .a y.logical).map (·.part) = some 0) :=
  ⟨⟨rfl, rfl, rfl, nofun, rfl⟩, rfl, rfl, ⟨_, rfl, rfl, rfl, rfl, rfl⟩, rfl, rfl, rfl, rfl, rfl, rfl, rfl, fun y h => by cases (Option.some.inj h : bot = y); rfl⟩

/-- The first slot filled and READY, a fresh slot is at hand, and after it another. -/
theorem witness_PackedRecordsArePlaced_slots (room : Nat) (b : List Byte) (y z : Slot) (hy : y.state = .ready) (hz : z.state = .ready) : let s := splitting room b
    let l := s.sbm.slots.set 0 y
    ({ s with sbm := { s.sbm with slots := l } }).assemblingOf 0 = none ∧ slotForWriting l = some 1 ∧ slotForWriting (l.set 1 z) = some 2 := by
  cases y; cases z; cases hy; cases hz; exact ⟨rfl, rfl, rfl⟩

/-- A record of ten bytes in a First and a Last, and one of 262,100 in a First of two bytes, a Middle and a Last. -/
theorem witness_PackedRecordsArePlaced_first_last : (storedForm ten).2.length = 10 ∧ 9 ≤ ((splitting 10 ten).slot 0).room ∧
    ((splitting 10 ten).slot 0).room < 8 + 10 ∧ 10 - (((splitting 10 ten).slot 0).room - 8) ≤ 262064 := by
  rw [splitting_room 10 ten (by decide)]; exact ⟨by decide +kernel, by decide, by decide, by decide⟩

theorem witness_PackedRecordsArePlaced_middle : let b := countUp 262100
    (storedForm b).2.length = 262100 ∧ 9 ≤ ((splitting 10 b).slot 0).room ∧ ((splitting 10 b).slot 0).room < 8 + 262100 ∧ 262100 ≤ 1048288 ∧
    262072 < 262100 - (((splitting 10 b).slot 0).room - 8) ∧ 262100 - (((splitting 10 b).slot 0).room - 8) ≤ 524136 := by
  intro b
  rw [splitting_room 10 b (by decide)]
  refine ⟨?_, by decide, by decide, by decide, by decide, by decide⟩
  rw [Laws.storedForm_noRepeat (countUp_noRepeat 262100)]
  simp [countUp]

/-- Eight bytes of room take no fragment, and another session's request waits for a slot. -/
theorem witness_PackedRecordsArePlaced_close : let s := splitting 8 ten
    let t := s.setSbm { s.sbm with requests := [{ row := 1, port := .b, reason := .credit }] }
    (t.slot 0).entries ≠ [] ∧ 1 ≤ (storedForm ten).2.length ∧ (t.slot 0).room < 9 ∧ t.sbm.requests ≠ [] :=
  ⟨nofun, by decide +kernel, show ((splitting 8 ten).slot 0).room < 9 by rw [splitting_room 8 ten (by decide)]; decide, nofun⟩

/-- A record whose token stream reaches both ends of a copy's length: 3 and 66. -/
theorem witness_PackingLosesNothing : (∃ b, Token.copy 1 3 ∈ encode b) ∧ (∃ b, Token.copy 1 66 ∈ encode b) ∧ ∃ b, Token.copy 3 3 ∈ encode b :=
  ⟨⟨List.replicate 4 7, by decide +kernel⟩, ⟨List.replicate 67 7, by decide +kernel⟩, ⟨[1, 2, 3, 1, 2, 3], by decide +kernel⟩⟩

/-- A request of port A for the ten bytes kept as given. -/
def request (scheme : Scheme) (raw stored limit : Nat) : ExpRequest :=
  { port := .a, scan := false, object := 0, scheme := scheme, raw := raw, stored := stored, bytes := ten, limit := limit }

/-- A read of port A that delivers. -/
def delivering (limit : Nat) : State :=
  let s := busyA (inHand1 5 (.readRecord limit) .reading) used
  s.setRdu { s.rdu with reads := { a := some { object := 0, part := 0, limit := limit, phase := .delivering, first := some 0, held := [(0, 0)], lastRead := none, fallen := false }, b := none } }

/-- The request waits for the engine. -/
def requested (q : ExpRequest) : State := (delivering q.limit).setRcx { used.rcx with expQueue := [q] }

theorem witness_RequestsAreTaken (q : ExpRequest) : (requested q).Calm ∧ (requested q).rcx.expander = none ∧ (requested q).rcx.expQueue = q :: [] ∧
    (requested q).unsentData q.port = false ∧ (∃ x, (requested q).rdu.reads.get .a = some x) ∧ ((requested q).port .a).inService.isSome = true :=
  ⟨⟨rfl, rfl, rfl, nofun, rfl⟩, rfl, rfl, by cases q with | mk p => cases p <;> rfl, ⟨_, rfl⟩, rfl⟩

theorem witness_RequestsAreTaken_forms : (request .stored 10 10 10).bytes.length = 10 ∧ (request .stored 10 10 10).raw ≤ 8192 ∧
    ¬ (1 ≤ (request .packed 10 10 10).raw ∧ (request .packed 10 10 10).stored < (request .packed 10 10 10).raw) := by decide

/-- An unsent data frame at port A. -/
def unsent : State :=
  (requested (request .stored 10 10 10)).setPort .a { (requested (request .stored 10 10 10)).port .a with tx := [.data 4 true [1]] }

theorem witness_RequestsAreTaken_unsent : unsent.Calm ∧ unsent.rcx.expander = none ∧ unsent.rcx.expQueue = request .stored 10 10 10 :: [] ∧
    unsent.unsentData .a = true := ⟨⟨rfl, rfl, rfl, by decide, rfl⟩, rfl, rfl, rfl⟩

/-- The engine at the place given in a record. -/
def engine (q : ExpRequest) (produced place : Nat) (history : List Byte) : Expander :=
  { req := q, produced := produced, history := history, place := place, framed := 0, held := q.bytes.take (min produced q.limit) }

/-- The read with its record in the engine. -/
def expanding (e : Expander) : State := (delivering e.req.limit).setRcx { used.rcx with expander := some e }

theorem witness_RecordsAreExpandedOrFail : let e := engine (request .stored 10 10 4) 10 80 ten.reverse
    let s := expanding e
    s.Calm ∧ s.rcx.expander = some e ∧ e.complete = true ∧ e.req.port = .a ∧ e.req.scan = false ∧ (∃ x, s.rdu.reads.get .a = some x ∧ x.limit = 4 ∧ x.object = bot.object) ∧
    (s.port .a).inService = some (inHand1 5 (.readRecord 4) .reading) ∧ s.context .a = some bot ∧ s.sessionOf .a = none ∧ s.msc.turn = none ∧
    (∃ x, s.rdu.reads.get .a = some x ∧ x.fallen = false) ∧ bot.object + 1 ≤ s.committedObjects 0 ∧ e.atFault = false :=
  ⟨⟨rfl, rfl, rfl, by decide, rfl⟩, rfl, by decide +kernel, rfl, rfl, ⟨_, rfl, rfl, rfl⟩, rfl, rfl, rfl, rfl, ⟨_, rfl, rfl⟩, by decide, by decide +kernel⟩

/-- The read's object has been cut away, and the partition has grown again since. -/
theorem witness_RecordsAreExpandedOrFail_cut : let s := (expanding (engine (request .stored 10 10 4) 10 80 ten.reverse)).noteFallen 0 0
    s.Calm ∧ s.context .a = some bot ∧ (∃ x, s.rdu.reads.get .a = some x ∧ x.fallen = true ∧ x.object + 1 ≤ s.committedObjects x.part) ∧ s.sessionOf .a = none ∧ s.msc.turn = none :=
  ⟨⟨rfl, rfl, rfl, by decide, rfl⟩, rfl, ⟨_, rfl, rfl, by decide⟩, rfl, rfl⟩

/-- The read's slot has been marked for its release (R114). -/
def releasingRead : State :=
  withSlots [{ Slot.free with state := .cached, owner := .port .a, pinA := true, releasing := true }] (expanding (engine (request .stored 10 10 4) 10 80 ten.reverse))

theorem witness_RecordsAreExpandedOrFail_release : let s := releasingRead
    s.Calm ∧ (s.slot 0).state = .cached ∧ (s.slot 0).releasing = true ∧ (s.slot 0).pinnedBy .a = true ∧ (s.slot 0).pinnedBy .b = false ∧
    (s.port .a).options.readAhead = true ∧ (after s .recordExpanded).slot 0 = Slot.free :=
  ⟨⟨rfl, rfl, rfl, nofun, rfl⟩, rfl, rfl, rfl, rfl, rfl, by decide +kernel⟩

/-- A scan of partition 0, taken as ending at the object given with 2 marks before it, whose last record is in the engine. -/
def lastOfScan (objects : Nat) : State :=
  let e := engine { request .stored 10 10 0 with scan := true, object := 39 } 10 80 ten.reverse
  let x : ScanState :=
    { part := 0, start := 20, objects := objects, segments := 4, marks := 2, granted := true, checkedPoint := 39, checkedMarks := 1, segmentsChecked := 3, pending := false, next := 4
      expectObject := none, expectMarks := 0, found := [{ object := 39, isMark := false, checked := false }], partial_ := none, fragments := 0, held := [],
      ended := some .complete, already := [] }
  let s := turning (.verify .a) .idle .stopped (busyA (inHand1 5 .verifyScan .reading) used)
  (s.setRcx { s.rcx with expander := some e }).setRdu { s.rdu with scans := { a := some x, b := none } }

theorem witness_RecordsAreExpandedOrFail_scan (n : Nat) : let s := lastOfScan n
    s.ports.a.cut = false ∧ s.ports.b.cut = false ∧ s.lsq.state ≠ .standby ∧
    s.msc.turn = some { job := .verify .a, written := 0, stopping := false, leaving := none } ∧
    (∃ e, s.rcx.expander = some e ∧ e.complete = true ∧ e.req.port = .a ∧ e.req.scan = true ∧ e.req.object = 39) ∧
    (∃ x, s.rdu.scans.get .a = some x ∧ x.ended = some .complete ∧ x.found = [{ object := 39, isMark := false, checked := false }] ∧ x.objects = n) ∧
    (s.port .a).inService = some (inHand1 5 .verifyScan .reading) ∧ s.context .a = some bot ∧ s.sessionOf .a = none ∧ s.committedObjects 0 = 3000 :=
  ⟨rfl, rfl, nofun, rfl, ⟨_, rfl, by decide +kernel, rfl, rfl, rfl⟩, ⟨_, rfl, rfl, rfl, rfl⟩, rfl, rfl, rfl, rfl⟩

/-- R135, R154: objects 40 to 44 below the end, a mark among them, lie in a segment that a Truncate has cut and that is not yet written again: the context is at the end with that mark counted, and the checked point is the first object not checked. -/
theorem test_scan_ends_past_kept_objects : let t := after (lastOfScan 45) .recordExpanded
    t.context .a = some { bot with object := 45, marks := 2 } ∧
    (t.port .a).tx = [.response 5 .ok false (some { bot with object := 45, marks := 2 }) (.scan 3 40 none)] := by decide +kernel

/-- R154: at its grant a scan takes the mark count with the committed end. -/
theorem test_scan_takes_marks :
    (((lastOfScan 45).grantScan (.verify .a)).rdu.scans.a.map (fun x => (x.objects, x.segments))) = some (3000, 120) ∧
    (((readyWith { usedPart with marks := 7 }).setRdu (lastOfScan 45).rdu).grantScan (.verify .a)).rdu.scans.a.map (·.marks) = some 7 := by decide +kernel

/-- A packed record whose first token is a copy, which has nothing to copy from. -/
def faulty : Expander := { engine (request .packed 10 2 4) 0 0 [] with req := { request .packed 10 2 4 with bytes := [128, 0] } }

theorem witness_RecordsAreExpandedOrFail_fault : (expanding faulty).Calm ∧ (expanding faulty).rcx.expander = some faulty ∧ faulty.atFault = true ∧
    (∃ x, (expanding faulty).rdu.reads.get .a = some x) ∧ ((expanding faulty).port .a).inService = some (inHand1 5 (.readRecord 4) .reading) ∧
    (expanding faulty).sessionOf .a = none ∧ (expanding faulty).msc.turn = none :=
  ⟨⟨rfl, rfl, rfl, by decide, rfl⟩, rfl, by decide +kernel, ⟨_, rfl⟩, rfl, rfl, rfl⟩

/-- The stored bytes of "ABABABABAB" (spec/05, worked decoding cases), two literals decoded and held, with the description given. -/
def faultyRun (raw stored : Nat) (bytes : List Byte) : Expander :=
  { engine (request .packed raw stored raw) 2 18 [66, 65] with
    req := { request .packed raw stored raw with bytes := bytes }, held := [65, 66] }

/-- Raw length 9: the match of length 8 would carry the count from 2 above it. -/
theorem witness_RecordsAreExpandedOrFail_passed : let e := faultyRun 9 5 [0x20, 0x90, 0xA0, 0x04, 0x50]
    (expanding e).Calm ∧ (expanding e).rcx.expander = some e ∧ e.atFault = true ∧ e.held ≠ [] ∧ e.framed + e.held.length < e.req.limit ∧
    ((expanding e).port .a).inService = some (inHand1 5 (.readRecord 9) .reading) :=
  ⟨⟨rfl, rfl, rfl, by decide, rfl⟩, rfl, by decide +kernel, nofun, by decide, rfl⟩

/-- R97, R148 (spec/05, worked decoding cases): the two bytes passed before the fault are sent without the final flag; the ten bytes that end with the last one to be delivered are not sent. -/
theorem test_decode_fault_frames :
    ((after (expanding (faultyRun 9 5 [0x20, 0x90, 0xA0, 0x04, 0x50])) .decodeFault).port .a).tx =
      [.data 5 false [65, 66], .response 5 .decodeFault false (some bot) (.produced 2)] ∧
    ((after (expanding (Expander.walk 10 (faultyRun 10 6 [0x20, 0x90, 0xA0, 0x04, 0x50, 0]))) .decodeFault).port .a).tx =
      [.response 5 .decodeFault false (some bot) (.produced 10)] := by decide +kernel

/-- The record's fragment lies in slot 0, which the other port's read pins too or not. -/
def faultyHeld (b : Bool) : State :=
  withSlots [{ Slot.free with state := .cached, owner := .port .a, header := blankHeader, pinA := true, pinB := b, lastUse := some 0 }] (expanding faulty)

theorem witness_RecordsAreExpandedOrFail_held (b : Bool) : (faultyHeld b).Calm ∧ (faultyHeld b).rcx.expander = some faulty ∧
    (∃ x, (faultyHeld b).rdu.reads.get .a = some x ∧ (0, 0) ∈ x.held) ∧ ((faultyHeld b).slot 0).state = .cached ∧ ((faultyHeld b).slot 0).pinnedBy .b = b :=
  ⟨⟨rfl, rfl, rfl, nofun, rfl⟩, rfl, ⟨_, rfl, List.mem_singleton.2 rfl⟩, rfl, rfl⟩

/-! ## Witnesses: waits of the buffer and of commands in service -/

/-- A Write Record that awaits a slot for its credit. -/
def awaiting : State :=
  (busyA (inHand1 5 (.writeRecord 10) .awaitSlot) (sessionA .streaming 1 ready)).setSbm { ready.sbm with requests := [{ row := 0, port := .a, reason := .credit }] }

theorem witness_SlotWaitsEnd : awaiting.Calm ∧ awaiting.sbm.requests = { row := 0, port := .a, reason := .credit } :: [] ∧
    slotForWriting awaiting.sbm.slots = some 0 ∧ (awaiting.port .a).inService = some (inHand1 5 (.writeRecord 10) .awaitSlot) ∧ ready.Calm ∧ ready.sbm.requests = [] :=
  ⟨⟨rfl, rfl, rfl, by decide, rfl⟩, rfl, by decide, rfl, ready_calm, rfl⟩

/-- A read that awaits a read-side slot. -/
def starved : State :=
  (delivering 4).setRdu { used.rdu with reads := { a := some { object := 0, part := 0, limit := 4, phase := .awaitingSlot, first := none, held := [], lastRead := none, fallen := false }, b := none } }

/-- The same with no slot to take. -/
def crowded : State := starved.setSbm { starved.sbm with slots := List.replicate 32 (readySlot 0) }

theorem witness_SlotWaitsEnd_read : starved.Calm ∧ starved.msc.activity ≠ .awaitingSlot ∧ (∃ x, starved.rdu.reads.get .a = some x ∧ x.phase = .awaitingSlot) ∧
    (slotForRead starved.sbm.slots .a).isSome = true ∧ crowded.Calm ∧ crowded.msc.activity ≠ .awaitingSlot ∧
    (∃ x, crowded.rdu.reads.get .a = some x ∧ x.phase = .awaitingSlot) ∧ slotForRead crowded.sbm.slots .a = none :=
  ⟨⟨rfl, rfl, rfl, by decide, rfl⟩, by decide, ⟨_, rfl, rfl⟩, by decide, ⟨rfl, rfl, rfl, by decide, rfl⟩, by decide, ⟨_, rfl, rfl⟩, by decide⟩

/-- A Locate that waits for its own session. -/
def waitsClose (x : RowState) (ph : Phase) : State := busyA (inHand1 5 (.locate 1 0) ph) (used.setRow 0 { rowA x 1 with holder := if x = .none then none else some .a })

theorem witness_WaitingCommandsEnd_closing :
    (waitsClose .closing (.waitClose 0)).Calm ∧ (waitsClose .closing (.waitClose 0)).holds .a 0 = true ∧
    (waitsClose .none (.waitClose 0)).Calm ∧ (waitsClose .none (.waitClose 0)).holds .a 0 = false ∧
    (waitsClose .failed .waitFailed).Calm ∧ (∀ x, (waitsClose .failed .waitFailed).sessionOf .a = some x → ((waitsClose .failed .waitFailed).row x).state.isActive = false) :=
  ⟨⟨rfl, rfl, rfl, by decide, rfl⟩, by decide, ⟨rfl, rfl, rfl, by decide, rfl⟩, by decide, ⟨rfl, rfl, rfl, by decide, rfl⟩, by decide⟩

/-- A Sync that waits on a session with the unverified count given. -/
def syncing (x : RowState) (n : Nat) : State := busyA { inHand1 5 .sync (.awaitSync 0) with part := some 0 } (sessionA x n used)

theorem witness_WaitingCommandsEnd_sync : (syncing .streaming 1).Calm ∧ (syncing .streaming 1).sessionOf .a = some 0 ∧ 0 < ((syncing .streaming 1).row 0).unverified ∧
    (syncing .closing 0).Calm ∧ (syncing .closing 0).sessionOf .a = some 0 ∧ ((syncing .closing 0).row 0).unverified = 0 ∧ (syncing .closing 0).assemblingOf 0 = none :=
  ⟨⟨rfl, rfl, rfl, by decide, rfl⟩, rfl, by decide, ⟨rfl, rfl, rfl, by decide, rfl⟩, rfl, rfl, by decide⟩

/-- A Verified-mode Write Record that waits for a segment. -/
def verifying (n : Nat) : State := busyA { inHand1 5 (.writeRecord 10) (.awaitVerify 0 n) with verified := true } (sessionA .streaming 1 used)

theorem witness_WaitingCommandsEnd_verified : (verifying 120).Calm ∧ (verifying 120).sessionOf .a = some 0 ∧ (verifying 120).committedSegments 0 ≤ 120 ∧
    (verifying 119).Calm ∧ 119 < (verifying 119).committedSegments 0 ∧ ((verifying 119).row 0).state.isActive = true ∧ ((verifying 119).row 0).closeDue = .no :=
  ⟨⟨rfl, rfl, rfl, by decide, rfl⟩, rfl, by decide, ⟨rfl, rfl, rfl, by decide, rfl⟩, by decide, rfl, rfl⟩

/-! ## Witnesses: loading, unloading, cut and resets -/

theorem witness_LoadAndUnloadByState (x : LoadState) (h : x ≠ .standby) : let s := inState x used
    s.TakesLibrary ∧ s.Settled ∧ s.lsq.state = x ∧ s.lsq.holder = .nobody ∧ s.rdu.scans = { a := none, b := none } ∧ s.msc.turn = none ∧
    (∀ r, (s.row r).state = .none) ∧ s.lsq.load = none ∧ s.lsq.checkpointMissed = false ∧ s.ports.a.inService = none ∧ s.ports.b.inService = none :=
  ⟨⟨rfl, rfl, rfl⟩, calm_settled ⟨rfl, rfl, rfl, h, rfl⟩, rfl, rfl, rfl, rfl, show ∀ r, (used.row r).state = .none by decide, rfl, rfl, rfl, rfl⟩

theorem witness_LoadAndUnloadByState_standby : (inState .standby used).TakesLibrary ∧ (inState .standby used).Settled ∧ (inState .standby used).lsq.state = .standby :=
  ⟨⟨rfl, rfl, rfl⟩, ⟨fun p h => by cases p <;> exact absurd h (by decide), fun p h => absurd h (by simp [State.job, inState, used, readyWith, Msc.powerOn, State.setLsq]), fun _ => ⟨by decide, by decide⟩, fun r p _ h => absurd h (by decide)⟩, rfl⟩

theorem witness_LoadAndUnloadByState_joins (x : LoadState) (h : x ≠ .standby) (p : Port) : let s := (inState x used).setLsq { (inState x used).lsq with holder := .port p }
    s.TakesLibrary ∧ s.Settled ∧ s.rdu.scans = { a := none, b := none } ∧ s.lsq.state = x ∧ s.lsq.holder = .port p :=
  ⟨⟨rfl, rfl, rfl⟩, calm_settled ⟨rfl, rfl, rfl, h, rfl⟩, rfl, rfl, rfl⟩

/-- Faulted with or without a held copy. -/
def faulted (copy : Bool) : State := let s := inState .faulted used; if copy then s else s.setDtc { s.dtc with copy := none }

theorem witness_LoadAndUnloadByState_faulted : (faulted true).TakesLibrary ∧ (faulted true).Settled ∧ (faulted true).lsq.state = .faulted ∧ (faulted true).lsq.holder = .nobody ∧
    (faulted true).lsq.kind = .data ∧ (faulted true).dtc.copy.isSome = true ∧ (faulted true).dtc.pendCheckpoint = none ∧ (faulted false).TakesLibrary ∧
    (faulted false).Settled ∧ (faulted false).lsq.state = .faulted ∧ (faulted false).dtc.copy = none ∧ (∀ r, ((faulted false).row r).state = .none) :=
  ⟨⟨rfl, rfl, rfl⟩, calm_settled ⟨rfl, rfl, rfl, by decide, rfl⟩, rfl, rfl, rfl, rfl, rfl, ⟨rfl, rfl, rfl⟩, calm_settled ⟨rfl, rfl, rfl, by decide, rfl⟩, rfl, rfl, by decide⟩

/-- Port B with a Locate that awaits its turn and two commands waiting. -/
def cuttable : State := used.setPort .b { quiet with inService := some (inHand1 7 (.locate 1 5) .tape), waiting := [⟨8, .sync⟩, ⟨9, .seekEnd⟩] }

/-- Port A with a Verify Scan whose copy is being read. -/
def scanning : State :=
  let s := turning (.verify .a) .reading .streaming (busyA (inHand1 7 .verifyScan .reading) used)
  s.setRdu { s.rdu with acc := some { part := 0, number := 0, attempt := none, lane := 0, offset := 0, readable := 0, retries := 0, passed := 0, forScan := false, slot := none, content := none } }

theorem witness_CutsAnswerThePort : cuttable.TakesLibrary ∧ cuttable.Calm ∧ cuttable.sessionOf .b = none ∧ cuttable.rdu.fills.get .b = .none ∧
    (cuttable.port .b).inService = some (inHand1 7 (.locate 1 5) .tape) ∧ cuttable.msc.turn = none ∧ used.TakesLibrary ∧ used.Calm ∧ (used.port .b).inService = none :=
  ⟨⟨rfl, rfl, rfl⟩, ⟨rfl, rfl, rfl, by decide, rfl⟩, rfl, rfl, rfl, rfl, used_takes, used_calm, rfl⟩

theorem witness_CutsAnswerThePort_scan : scanning.TakesLibrary ∧ scanning.Settled ∧
    scanning.msc.turn = some { job := .verify .a, written := 0, stopping := false, leaving := none } ∧ scanning.rdu.acc.isSome = true ∧ scanning.msc.activity = .reading :=
  ⟨⟨rfl, rfl, rfl⟩, ⟨fun p h => by cases p <;> exact absurd h (by decide), fun p h => by cases p <;> first | decide | exact absurd h (by decide),
    fun h => absurd h (by decide), fun r p _ h => absurd h (by decide)⟩, rfl, rfl, rfl⟩

/-- Port A's Locate in a retry of its header scan, the head on its way back to the copy, before a Port Cut and after it. -/
def goingBack (cut : Bool) : State :=
  let g : Goal := { part := 0, logical := 1, aim := .object 5, wanted := 5, marksCounted := false, spacing := false, validates := true, result := .ok, residual := none }
  let s := turning (.position .a g) (.relocating { lane := 0, coord := 600 } { lane := 0, coord := 64 } false .reread) .relocating
    (if cut then used else busyA (inHand1 7 (.locate 1 5) .tape) used)
  if cut then s.setMsc { s.msc with turn := some { job := .position .a g, written := 0, stopping := true, leaving := none } }
  else
    s.setAcc (some { part := 0, number := 4, attempt := none, lane := 0, offset := 64, readable := 255, retries := 1, passed := 0, forScan := true
                     slot := none, content := none })

theorem witness_CutsAnswerThePort_retry : (goingBack false).TakesLibrary ∧ (goingBack false).Calm ∧ (goingBack false).sessionOf .a = none ∧
    (goingBack false).rdu.fills.get .a = .none ∧ ((goingBack false).port .a).waiting = [] ∧
    ((goingBack false).port .a).inService = some (inHand1 7 (.locate 1 5) .tape) ∧
    (∃ g, (goingBack false).msc.turn = some { job := .position .a g, written := 0, stopping := false, leaving := none }) ∧
    (goingBack false).msc.activity = .relocating { lane := 0, coord := 600 } { lane := 0, coord := 64 } false .reread ∧
    (∃ a, (goingBack false).rdu.acc = some a ∧ a.slot = none) ∧ (goingBack true).Calm ∧ (goingBack true).rdu.acc = none ∧
    (∃ g, (goingBack true).msc.turn = some { job := .position .a g, written := 0, stopping := true, leaving := none }) ∧
    (goingBack true).msc.activity = .relocating { lane := 0, coord := 600 } { lane := 0, coord := 64 } false .reread :=
  ⟨⟨rfl, rfl, rfl⟩, ⟨rfl, rfl, rfl, by decide, rfl⟩, rfl, rfl, rfl, rfl, ⟨_, rfl⟩, rfl, ⟨_, rfl, rfl⟩, ⟨rfl, rfl, rfl, by decide, rfl⟩, rfl, ⟨_, rfl⟩, rfl⟩

/-- R70: the turn ends at the arrival of the relocation that the Cut met. -/
theorem test_retry_cut : (after (goingBack false) (.portCut 0)).msc.turn.isSome = true ∧ (after (goingBack false) (.portCut 0)).rdu.acc = none ∧
    (after (goingBack true) .relocationComplete).msc.turn = none := by decide +kernel

theorem witness_ResetAndPowerOn : used.sst.meter < used.sst.settings.cleaningInterval * 100000 := by decide

theorem witness_DeviceResetsEverything : full.resetLine = false ∧ full.moving = false ∧ full.msc.travel = 0 ∧
    ∀ x, (inState x full).resetLine = false ∧ (inState x full).lsq.state = x ∧ (inState x full).lsq.resetPath = false ∧ (inState x full).lsq.kind = .data :=
  ⟨rfl, rfl, rfl, fun _ => ⟨rfl, rfl, rfl, rfl⟩⟩

/-- A relocation ahead on lane 0 and one across lanes. -/
def relocating (hit : Bool) (target : Place) : State :=
  turning (.position .a { part := 0, logical := 1, aim := .bot, wanted := 0, marksCounted := false, spacing := false, validates := true, result := .ok, residual := none })
    (.relocating { lane := 0, coord := 0 } target hit .goal) .relocating (busyA (inHand1 5 (.rewind none) .tape) used)

/-- The head streaming on lane 1 at the in-lane offset 47,999. -/
def streamingAt (lane o : Nat) : State :=
  let s := turning (.read .a) .seeking .streaming (delivering 4)
  s.setMsc { s.msc with head := placeOf lane o }

theorem witness_StopsStayInBounds : (relocating true { lane := 0, coord := 47999 }).resetLine = false ∧ (relocating true { lane := 0, coord := 47999 }).msc.motion = .relocating ∧
    (relocating false { lane := 1, coord := 47999 }).resetLine = false ∧ (relocating false { lane := 1, coord := 47999 }).msc.motion = .relocating ∧
    used.hcm.meter ≤ meterMax ∧ (streamingAt 1 47999).resetLine = false ∧ (streamingAt 1 47999).msc.motion = .streaming ∧ (streamingAt 1 47999).msc.activity = .seeking ∧
    (streamingAt 1 47999).msc.head = placeOf (streamingAt 1 47999).msc.head.lane 47999 ∧ (47999 : Nat) < 48000 ∧ used.moving = false :=
  ⟨rfl, rfl, rfl, rfl, by decide, rfl, rfl, rfl, rfl, by decide, rfl⟩

/-- A relocation from lane 0 to lane 1 with a record of 64 segments of lane 0 open. -/
def leavingLane : State :=
  let s := relocating false { lane := 1, coord := 47999 }
  s.setHcm { s.hcm with openRecord := some { lane := 0, write := false, processed := 1024, errors := 0 } }

theorem witness_StopsStayInBounds_record : leavingLane.resetLine = false ∧ leavingLane.msc.motion = .relocating ∧
    leavingLane.msc.activity = .relocating { lane := 0, coord := 0 } { lane := 1, coord := 47999 } false .goal ∧
    leavingLane.hcm.openRecord = some { lane := 0, write := false, processed := 1024, errors := 0 } ∧ leavingLane.hcm.history = [] :=
  ⟨rfl, rfl, rfl, rfl, rfl⟩

/-- Port A with a record being received, a slot of its own and one that port B pins, beside port B's read. -/
def mixed : State :=
  let s := busyA (inHand1 5 (.writeRecord 10) .receiving) used
  let own : Slot := { Slot.free with state := .cached, owner := .port .a, header := { blankHeader with number := 3 } }
  let s := withSlots [own, { own with header := { blankHeader with number := 4 }, pinB := true }, { own with owner := .port .b }] s
  (s.setRcx { s.rcx with intake := { a := .receiving 10 [1], b := .waiting [2] }, packQueue := [.b] }).setRdu
    { s.rdu with reads := { a := none, b := some { object := 0, part := 0, limit := 4, phase := .delivering, first := some 4, held := [(4, 1)], lastRead := none, fallen := false } } }

theorem witness_PortResetDiscards : full.Calm ∧ full.msc.turn = none ∧ full.sessionOf .a = none ∧ (∀ r n, full.rdu.fills.get .a ≠ .running r n) ∧
    mixed.Calm ∧ mixed.msc.turn = none ∧ mixed.sessionOf .a = none ∧ (∀ r n, mixed.rdu.fills.get .a ≠ .running r n) ∧
    (∃ c, (mixed.port .a).inService = some c ∧ c.cmd = .writeRecord 10 ∧ c.phase = .receiving) ∧ (mixed.slot 0).readSide = true ∧ (mixed.slot 0).owner = .port .a ∧
    (mixed.slot 0).pinnedBy .b = false ∧ (mixed.slot 1).pinnedBy .b = true ∧ (mixed.slot 2).owner ≠ .port .a ∧ (mixed.slot 2).copying ≠ some .a ∧
    (delivering 4).Calm ∧ (delivering 4).msc.turn = none ∧ (delivering 4).sessionOf .a = none ∧ (∃ c, ((delivering 4).port .a).inService = some c ∧ c.phase = .reading) :=
  ⟨⟨rfl, rfl, rfl, by decide, rfl⟩, rfl, rfl, nofun, ⟨rfl, rfl, rfl, by decide, rfl⟩, rfl, rfl, nofun, ⟨_, rfl, rfl, rfl⟩, by decide, by decide, by decide, by decide,
    by decide, by decide, ⟨rfl, rfl, rfl, by decide, rfl⟩, rfl, rfl, ⟨_, rfl, rfl⟩⟩

theorem witness_PortResetDiscards_session (x : RowState) (h : x ≠ .none) : let s := sessionA x 1 used
    s.Calm ∧ s.msc.turn = none ∧ s.sessionOf .a = some 0 ∧ (s.port .a).inService = none ∧ s.rdu.fills.get .a = .none ∧ (s.row 0).state = x ∧ s.placingFor 0 = false ∧
    s.assemblingOf 0 = none ∧ 0 < (s.row 0).unverified :=
  ⟨⟨rfl, rfl, rfl, nofun, rfl⟩, rfl, by cases x <;> first | rfl | exact absurd rfl h, rfl, rfl, rfl, rfl, by cases x <;> decide, by cases x <;> decide⟩

/-- A session with nothing unverified whose record awaits a slot for its next fragment (R109). -/
def placingA : State :=
  let s := busyA (inHand1 5 (.writeRecord 10) .placing) (sessionA .streaming 0 used)
  (s.setSbm { s.sbm with placing := { a := some { row := 0, scheme := .stored, raw := 10, begun := true }, b := none }, requests := [{ row := 0, port := .a, reason := .placing }] }).setRcx
    { s.rcx with intake := { a := .packed 10 .stored [1], b := .empty } }

theorem witness_PortResetDiscards_placing : placingA.Calm ∧ placingA.msc.turn = none ∧ placingA.sessionOf .a = some 0 ∧
    (placingA.port .a).inService = some (inHand1 5 (.writeRecord 10) .placing) ∧ placingA.rdu.fills.get .a = .none ∧ (placingA.row 0).state = .streaming ∧
    (placingA.row 0).unverified = 0 ∧ placingA.placingFor 0 = true := ⟨⟨rfl, rfl, rfl, nofun, rfl⟩, rfl, rfl, rfl, rfl, rfl, rfl, rfl⟩

/-- R53, R109: a Port Cut leaves the row Held while its closing waits for the placement, and a port reset does so too. -/
theorem test_cut_while_placing : (after placingA (.portCut 0)).row 0 = { placingA.row 0 with state := .held, closeDue := .afterPlacing } ∧
    (after placingA (.portReset .a)).row 0 = { placingA.row 0 with state := .held, closeDue := .afterPlacing } := by decide +kernel

theorem witness_PortResetDiscards_turn : let s := relocating false { lane := 1, coord := 47999 }
    s.Calm ∧ s.sessionOf .a = none ∧ s.rdu.fills.get .a = .none ∧ s.rdu.acc = none ∧ (∃ c, (s.port .a).inService = some c ∧ c.phase = .tape ∧ c.cmd ≠ .truncate) ∧
    (∃ g, s.msc.turn = some { job := .position .a g, written := 0, stopping := false, leaving := none }) ∧
    s.msc.activity = .relocating { lane := 0, coord := 0 } { lane := 1, coord := 47999 } false .goal :=
  ⟨⟨rfl, rfl, rfl, by decide, rfl⟩, rfl, rfl, rfl, ⟨_, rfl, rfl, by decide⟩, ⟨_, rfl⟩, rfl⟩

/-! ## Witnesses: the cartridge, the leader and tension -/

theorem witness_CartridgesAndTabs : State.reset.lsq.state = .empty ∧ (inState .ejected used).Settled ∧ (inState .ejected used).lsq.state = .ejected ∧
    (inState .ejected used).dtc.reader = none ∧ used.Calm ∧ used.lsq.state ≠ .ejected ∧ used.lsq.state ≠ .empty :=
  ⟨rfl, calm_settled ⟨rfl, rfl, rfl, by decide, rfl⟩, rfl, rfl, used_calm, by decide, by decide⟩

/-- A cartridge pulled with an outstanding command, with a command of port A's in service, and with an open or a Failed session of port A's. -/
theorem witness_CartridgesAndTabs_pulled (c : LibCommand) : let s := used.setLp { used.lp with outstanding := some c }
    let t := busyA (inHand1 7 (.locate 1 5) .tape) used
    let u := busyA (inHand1 7 .unloadRequest .unloading) used
    let v := sessionA .streaming 1 used
    let f : DeferredFault := { part := 0, firstLost := 3, reason := .tagFault }
    let w := used.setRow 0 { rowA .failed 0 with fault := some f }
    s.Calm ∧ s.lsq.state = .ready ∧ s.lp.outstanding = some c ∧ t.Calm ∧ t.lsq.state = .ready ∧ (t.port .a).inService = some (inHand1 7 (.locate 1 5) .tape) ∧
    u.Calm ∧ u.lsq.state = .ready ∧ (u.port .a).inService = some (inHand1 7 .unloadRequest .unloading) ∧
    v.Calm ∧ v.lsq.state = .ready ∧ v.sessionOf .a = some 0 ∧ (∀ q, v.holds .a q = true → q = 0) ∧ (v.port .a).inService = none ∧ (v.row 0).state.isOpen = true ∧
    w.Calm ∧ w.lsq.state = .ready ∧ w.sessionOf .a = some 0 ∧ (∀ q, w.holds .a q = true → q = 0) ∧ (w.port .a).inService = none ∧ (w.row 0).state = .failed ∧
    (w.row 0).fault = some f :=
  ⟨⟨rfl, rfl, rfl, nofun, rfl⟩, rfl, rfl, ⟨rfl, rfl, rfl, by decide, rfl⟩, rfl, rfl, ⟨rfl, rfl, rfl, by decide, rfl⟩, rfl, rfl,
    ⟨rfl, rfl, rfl, by decide, rfl⟩, rfl, rfl, by decide, rfl, rfl, ⟨rfl, rfl, rfl, by decide, rfl⟩, rfl, rfl, by decide, rfl, rfl, rfl⟩

theorem witness_CartridgesAndTabs_tab : used.Calm ∧ used.lsq.state ≠ .empty ∧ (∀ r, (used.row r).state.isActive = false) ∧
    (sessionA .streaming 1 used).Calm ∧ (sessionA .streaming 1 used).lsq.state ≠ .empty ∧ ((sessionA .streaming 1 used).row 0).state.isActive = true ∧
    (∀ q, q ≠ 0 → ((sessionA .streaming 1 used).row q).state.isActive = false) ∧ (sessionA .streaming 1 used).holderWriting 0 = false ∧
    (sessionA .streaming 1 used).placingFor 0 = false ∧ (sessionA .streaming 1 used).assemblingOf 0 = none ∧ 0 < ((sessionA .streaming 1 used).row 0).unverified :=
  ⟨used_calm, by decide, by decide, ⟨rfl, rfl, rfl, by decide, rfl⟩, by decide, rfl, by decide, by decide, by decide, by decide, by decide⟩

/-- Threading, with the retry count given. -/
def threading (n : Nat) : State := used.setLsq { used.lsq with state := .threading, retries := n, threadTimer := some 8, load := some .going }

theorem witness_LeadersAreThreadedAndReleased : (threading 1).lsq.state = .threading ∧ (threading 1).lsq.threadTimer.isSome = true ∧ (threading 1).lsq.retries < 2 ∧
    (threading 2).lsq.state = .threading ∧ (threading 2).lsq.threadTimer.isSome = true ∧ 2 ≤ (threading 2).lsq.retries ∧ (threading 2).lsq.load = some .going ∧
    (∀ r, ((threading 2).row r).state = .none) := ⟨rfl, rfl, by decide, rfl, rfl, by decide, rfl, by decide⟩

/-- Unthreading toward the destination given, for the library's Unload. -/
def unthreading (d : Destination) (missed : Bool) : State :=
  let s := used.setLsq { used.lsq with state := .unthreading, destination := d, holder := .library, checkpointMissed := missed }
  s.setLp { s.lp with outstanding := some .unload }

theorem witness_LeadersAreThreadedAndReleased_released (d : Destination) (b : Bool) : let s := unthreading d b
    s.lsq.state = .unthreading ∧ s.lsq.forced = false ∧ s.lsq.destination = d ∧ s.ports.a.inService = none ∧ s.ports.b.inService = none ∧
    s.hcm.openRecord = none ∧ s.lsq.load = none ∧ s.lp.outstanding = some .unload ∧ s.lsq.holder = .library ∧ used.lsq.state ≠ .unthreading :=
  ⟨rfl, rfl, rfl, rfl, rfl, rfl, rfl, rfl, rfl, nofun⟩

/-- Unthreading toward Ejected for a Load that ends as given. -/
def ejecting (x : LoadRun) (forced : Bool) : State :=
  let s := used.setLsq { used.lsq with state := .unthreading, destination := .ejected, load := some x, forced := forced }
  s.setLp { s.lp with outstanding := some .load }

theorem witness_LeadersAreThreadedAndReleased_load (x : LoadRun) : let s := ejecting x false
    s.lsq.state = .unthreading ∧ s.lsq.destination = .ejected ∧ s.hcm.openRecord = none ∧ s.lsq.forced = false ∧ s.ports.a.inService = none ∧ s.ports.b.inService = none ∧
    s.lsq.load = some x ∧ s.lp.outstanding = some .load ∧ s.lsq.holder = .nobody :=
  ⟨rfl, rfl, rfl, rfl, rfl, rfl, rfl, rfl, rfl⟩

/-- Unthreading toward Ejected for port A's Unload Request, joined by a library Unload or not. -/
def hostEjects (joined : Bool) : State :=
  let s := busyA (inHand1 7 .unloadRequest .unloading) used
  let s := s.setLsq { s.lsq with state := .unthreading, destination := .ejected, holder := .port .a, joined := joined }
  s.setLp { s.lp with outstanding := if joined then some .unload else none }

theorem witness_LeadersAreThreadedAndReleased_host (b : Bool) : let s := hostEjects b
    s.lsq.state = .unthreading ∧ s.lsq.destination = .ejected ∧ s.hcm.openRecord = none ∧ s.lsq.forced = false ∧
    (s.port .a).inService = some (inHand1 7 .unloadRequest .unloading) ∧ (s.port (otherPort .a)).inService = none ∧ s.lsq.load = none ∧ s.lsq.holder = .port .a ∧
    s.lsq.joined = b ∧ (b = false → s.lp.outstanding ≠ some .unload) ∧ (b = true → s.lp.outstanding = some .unload) :=
  ⟨rfl, rfl, rfl, rfl, rfl, rfl, rfl, rfl, rfl, fun h => by subst h; nofun, fun h => by subst h; rfl⟩

/-- The forced path, from the coordinate 700. -/
theorem witness_LeadersAreThreadedAndReleased_forced : let s := unthreading .ejected false
    let t := (s.setLsq { s.lsq with forced := true }).setMsc { s.msc with head := placeOf 2 700 }
    t.lsq.state = .unthreading ∧ t.lsq.destination = .ejected ∧ t.hcm.openRecord = none ∧ t.lsq.forced = true ∧ t.MeterQuiet t.msc.head.coord ∧
    t.ports.a.inService = none ∧ t.ports.b.inService = none ∧ t.lsq.load = none ∧ t.lp.outstanding = some .unload ∧ t.lsq.holder = .library :=
  ⟨rfl, rfl, rfl, rfl, ⟨by decide, by decide⟩, rfl, rfl, rfl, rfl, rfl⟩

/-- Tension being taken up, with the kind, the reset path and the Current flag given. -/
def tensioning (k : Kind) (path current : Bool) : State :=
  let s := used.setLsq { used.lsq with state := .tensioning, kind := k, resetPath := path, load := some .going }
  (s.setDtc { s.dtc with copy := some { type := .dataS, parts := [usedPart], current := current } }).setLp { s.lp with outstanding := some .load }

theorem witness_TensionSettles (k : Kind) (path current : Bool) : let s := tensioning k path current
    s.Calm ∧ s.lsq.state = .tensioning ∧ s.lsq.resetPath = path ∧ s.lsq.kind = k ∧ s.copyCurrent = current ∧ s.lsq.load = some .going ∧ s.lp.outstanding = some .load ∧
    (inState .waking used).Calm ∧ (inState .waking used).lsq.holder = .nobody ∧ (inState .waking used).dtc.interval.isSome = true ∧ used.Calm ∧
    used.lsq.state ≠ .tensioning ∧ used.lsq.state ≠ .waking :=
  ⟨⟨rfl, rfl, rfl, nofun, rfl⟩, rfl, rfl, rfl, by cases current <;> rfl, rfl, rfl, ⟨rfl, rfl, rfl, nofun, rfl⟩, rfl, rfl, used_calm, nofun, nofun⟩

/-- Waking for an unload. -/
def wakingFor (h : Holder) : State := let s := inState .waking used; s.setLsq { s.lsq with holder := h }

theorem witness_TensionSettles_unload (h : Holder) : (wakingFor h).Calm ∧ (wakingFor h).lsq.state = .waking ∧ (wakingFor h).lsq.holder = h ∧ (wakingFor h).msc.turn = none ∧
    (wakingFor h).rdu.scans = { a := none, b := none } ∧ (∀ r, ((wakingFor h).row r).state.isActive = false) :=
  ⟨⟨rfl, rfl, rfl, nofun, rfl⟩, rfl, rfl, rfl, rfl, show ∀ r, (used.row r).state.isActive = false by decide⟩

/-- A session of port A on which a Sync waits, port B's Locate in service, and an unload held or joined, in the state given. -/
def tense (x : LoadState) (h : Holder) (joined copy : Bool) : State :=
  let s := otherBusy.setRow 0 (rowA .streaming 1)
  let s := busyA { inHand1 5 .sync (.awaitSync 0) with part := some 0 } s
  let s := if copy then s else s.setDtc { s.dtc with copy := none }
  s.setLsq { s.lsq with state := x, holder := h, joined := joined }

theorem witness_TensionLostStops_all (x : LoadState) (h : Holder) (j c : Bool) (hx : x ≠ .standby) : let s := tense x h j c
    s.Calm ∧ s.lsq.state = x ∧ s.lsq.holder = h ∧ s.lsq.joined = j ∧ s.lsq.kind = .data ∧ s.dtc.copy.isSome = c ∧
    (∃ y, (s.port .b).inService = some y ∧ y.phase = .tape) ∧ s.sessionOf .a = some 0 ∧ (∀ q, s.holds .a q = true → q = 0) ∧ (s.row 0).state.isOpen = true ∧
    (∀ y, (s.port .a).inService = some y → y.phase ≠ .tape ∧ y.phase ≠ .reading) := by
  refine ⟨?_, rfl, rfl, rfl, ?_, ?_, ?_, ?_, ?_, ?_, ?_⟩
  · cases c <;> exact ⟨rfl, rfl, rfl, hx, rfl⟩
  all_goals cases c
  all_goals first | rfl | exact ⟨_, rfl, rfl⟩ | exact (fun q => by revert q; exact (by decide : ∀ q, (otherBusy.setRow 0 (rowA .streaming 1)).holds .a q = true → q = 0)) | skip
  all_goals exact (fun y hy => by cases hy; exact ⟨nofun, nofun⟩)

/-- A read at port A that awaits its turn. -/
theorem witness_TensionLostStops_read : starved.Calm ∧ starved.lsq.state = .ready ∧ starved.lsq.holder = .nobody ∧ starved.lsq.joined = false ∧
    (∃ y x, (starved.port .a).inService = some y ∧ y.phase = .reading ∧ starved.rdu.reads.get .a = some x ∧ x.phase ≠ .delivering) :=
  ⟨⟨rfl, rfl, rfl, by decide, rfl⟩, rfl, rfl, rfl, ⟨_, _, rfl, rfl, rfl, by decide⟩⟩

/-- A Load in progress while tension is taken up. -/
theorem witness_TensionLostStops_load : let s := tensioning .data false true
    s.Calm ∧ s.lsq.state = .tensioning ∧ s.lsq.load.isSome = true ∧ s.lp.outstanding = some .load :=
  ⟨⟨rfl, rfl, rfl, by decide, rfl⟩, rfl, rfl, rfl⟩

theorem witness_TensionLostStops (x : LoadState) (h : x ≠ .standby) :
    (inState x full).Calm ∧ (inState x full).Settled ∧ (inState x full).lsq.state = x ∧ (inState x full).lsq.holder = .nobody :=
  ⟨⟨rfl, rfl, rfl, h, rfl⟩, calm_settled ⟨rfl, rfl, rfl, h, rfl⟩, rfl, rfl⟩

/-! ## Witnesses: the tag reader -/

/-- A transaction of the kind given in flight. -/
def inFlight (k : TagKind) (d : Option Directory) (s : State) : State :=
  s.setDtc { s.dtc with reader := some { kind := k, snapshot := d, timeout := 2, waiters := [], cutSince := false } }

/-- A load read pending, a stale mark pending, and a checkpoint and a library access with the moments given. -/
def pendLoad (x : LoadRequest) : State := used.setDtc { used.dtc with pendLoad := some { since := 0, request := x }, pendStale := some 0 }
def pendStale : State := used.setDtc { used.dtc with pendStale := some 0, waiters := [0] }
def pendBoth (checkpoint library : Nat) : State :=
  used.setDtc { used.dtc with pendCheckpoint := some { since := checkpoint, closing := false }, pendLibrary := some { since := library, access := .readAttr 1 } }

theorem witness_ReaderGrantsInOrder : (inFlight .loadRead none used).Calm ∧ (inFlight .loadRead none used).dtc.reader.isSome = true ∧ used.Calm ∧
    used.dtc.reader = none ∧ used.dtc.pendLoad = none ∧ used.dtc.pendStale = none ∧ used.dtc.pendCheckpoint = none ∧ used.dtc.pendLibrary = none ∧
    (pendLoad .loadRead).Calm ∧ (pendLoad .loadRead).dtc.pendLoad.map (·.request) = some .loadRead ∧ (pendLoad .reread).Calm ∧ (pendLoad .reread).dtc.pendLoad.map (·.request) = some .reread ∧
    pendStale.Calm ∧ pendStale.dtc.pendStale.isSome = true ∧ pendStale.copyCurrent = true ∧
    (pendBoth 1 0).Calm ∧ (∀ c, (pendBoth 1 0).dtc.pendCheckpoint = some c → 0 < c.since) ∧
    (pendBoth 0 1).Calm ∧ (∀ a, (pendBoth 0 1).dtc.pendLibrary = some a → 0 ≤ a.since) :=
  ⟨⟨rfl, rfl, rfl, by decide, rfl⟩, rfl, used_calm, rfl, rfl, rfl, rfl, rfl, ⟨rfl, rfl, rfl, by decide, rfl⟩, rfl, ⟨rfl, rfl, rfl, by decide, rfl⟩, rfl,
    ⟨rfl, rfl, rfl, by decide, rfl⟩, rfl, rfl, ⟨rfl, rfl, rfl, by decide, rfl⟩, fun c h => by cases (Option.some.inj h : (⟨1, false⟩ : PendingCheckpoint) = c); decide,
    ⟨rfl, rfl, rfl, by decide, rfl⟩, fun _ _ => Nat.zero_le _⟩

/-- The closing checkpoint pending in Closing, on the forced path or not. -/
def pendClosing (forced : Bool) : State :=
  let s := inState .closing used
  (s.setLsq { s.lsq with forced := forced }).setDtc { s.dtc with pendCheckpoint := some { since := 0, closing := true } }

theorem witness_ReaderGrantsInOrder_closing (b : Bool) : let s := pendClosing b
    s.Calm ∧ s.dtc.reader = none ∧ s.dtc.pendLoad = none ∧ s.dtc.pendStale = none ∧ (∃ c, s.dtc.pendCheckpoint = some c ∧ c.closing = true) ∧ s.dtc.copy.isSome = true ∧
    s.dtc.pendLibrary = none ∧ s.lsq.forced = b ∧ s.lsq.writeFault = false ∧ ∀ r, (s.row r).state ≠ .failed :=
  ⟨⟨rfl, rfl, rfl, nofun, rfl⟩, rfl, rfl, rfl, ⟨_, rfl, rfl⟩, rfl, rfl, rfl, rfl, show ∀ r, (used.row r).state ≠ .failed by decide⟩

/-- The load read in flight, of the tag given. -/
def loadReading (t : Tag) : State :=
  let s := inFlight .loadRead none { State.reset with cart := { tag := some t, writeTab := false }, lsq := { Lsq.powerOn .tagRead .ejected with load := some .going } }
  s.setLp { s.lp with outstanding := some .load }

/-- A cleaning cartridge with the passes given. -/
def cleaner (n : Nat) : Tag := { type := .cleaning, parts := [], current := false, passes := n, attributes := emptyAttributes }

theorem witness_LoadReadsEnd (t : Tag) : (loadReading t).Calm ∧ (∃ x, (loadReading t).dtc.reader = some x ∧ x.kind = .loadRead) ∧ (loadReading t).cart.tag = some t ∧
    (loadReading t).lsq.state = .tagRead ∧ (loadReading t).lsq.resetPath = false ∧ (loadReading t).lp.outstanding = some .load ∧ (loadReading t).lsq.load = some .going ∧
    (loadReading t).ports.a.inService = none ∧ (loadReading t).ports.b.inService = none ∧ (loadReading t).lsq.holder = .nobody ∧
    tagOk card = true ∧ isDataType card.type = true ∧ tagOk (cleaner 50) = true ∧ tagOk (cleaner 51) = false ∧ tagOk (cleaner 0) = true :=
  ⟨⟨rfl, rfl, rfl, nofun, rfl⟩, ⟨_, rfl, rfl⟩, rfl, rfl, rfl, rfl, rfl, rfl, rfl, rfl, by decide, rfl, by decide, by decide, by decide⟩

/-- The re-read of the reset path, in flight. -/
def rereading (t : Tag) : State :=
  let s := inFlight .reread none (inState .tagRead used)
  { s.setLsq { s.lsq with resetPath := true } with cart := { tag := some t, writeTab := false } }

theorem witness_LoadReadsEnd_reread (t : Tag) : (rereading t).Calm ∧ (∃ x, (rereading t).dtc.reader = some x ∧ x.kind = .reread) ∧ (rereading t).cart.tag = some t ∧
    (rereading t).lsq.state = .tagRead ∧ (rereading t).lsq.resetPath = true ∧ (rereading t).lsq.load = none ∧ tagOk card = true ∧ card.current = true ∧
    tagOk { card with current := false } = true :=
  ⟨⟨rfl, rfl, rfl, nofun, rfl⟩, ⟨_, rfl, rfl⟩, rfl, rfl, rfl, rfl, by decide, rfl, by decide⟩

/-- The pass decrement of a Load, in flight. -/
def decrementing (n : Nat) : State := let s := loadReading (cleaner (n + 1)); inFlight (.passDecrement n) none s

theorem witness_LoadReadsEnd_decrement (n : Nat) : (decrementing n).Calm ∧ (∃ x, (decrementing n).dtc.reader = some x ∧ x.kind = .passDecrement n) ∧
    (decrementing n).cart.tag = some (cleaner (n + 1)) ∧ (decrementing n).lsq.state = .tagRead ∧ (decrementing n).lsq.resetPath = false ∧
    (decrementing n).lp.outstanding = some .load ∧ (decrementing n).lsq.load = some .going ∧ (decrementing n).lsq.holder = .nobody :=
  ⟨⟨rfl, rfl, rfl, nofun, rfl⟩, ⟨_, rfl, rfl⟩, rfl, rfl, rfl, rfl, rfl, rfl⟩

/-- A library access in flight whose command is outstanding. -/
def accessing (a : LibAccess) : State := (inFlight (.library a) none used).setLp { used.lp with outstanding := some (.access a) }

theorem witness_AccessesEnd (a : LibAccess) : (accessing a).Calm ∧ (∃ x, (accessing a).dtc.reader = some x ∧ x.kind = .library a) ∧
    (∃ t, (accessing a).cart.tag = some t) ∧ (accessing a).lp.outstanding = some (.access a) ∧ (accessing a).dtc.pendLibrary = none ∧
    (∀ r, ((accessing a).row r).state.isActive = false) :=
  ⟨⟨rfl, rfl, rfl, nofun, rfl⟩, ⟨_, rfl, rfl⟩, ⟨_, rfl⟩, rfl, rfl, show ∀ r, (used.row r).state.isActive = false by decide⟩

/-- A lock done on the partition of a session that appends, with a write in service or none. -/
theorem witness_AccessesEnd_lock : let s := sessionA .streaming 1 (accessing (.lock 0 true))
    let t := busyA (inHand1 5 (.writeRecord 10) .receiving) s
    s.Calm ∧ s.dtc.pendLibrary = none ∧ s.cart.writeTab = false ∧ partNumber 0 = 0 ∧ (s.partDir 0).isSome = true ∧ (s.row 0).state.isActive = true ∧
    s.placingFor 0 = false ∧ s.holderWriting 0 = false ∧ s.assemblingOf 0 = none ∧ 0 < (s.row 0).unverified ∧
    t.Calm ∧ t.holderWriting 0 = true ∧ (t.row 0).closeDue ≠ .afterPlacing :=
  ⟨⟨rfl, rfl, rfl, by decide, rfl⟩, rfl, rfl, rfl, rfl, rfl, rfl, rfl, by decide, by decide, ⟨rfl, rfl, rfl, by decide, rfl⟩, rfl, by decide⟩

/-- A write of the directory in flight, after the failures given. -/
def directoryWrite (k : TagKind) (n : Nat) : State :=
  let s := inFlight k used.dtc.copy used
  s.setDtc { s.dtc with failures := n }

theorem witness_DirectoryWritesEnd (k : TagKind) (n : Nat) : (directoryWrite k n).Calm ∧ (∃ x, (directoryWrite k n).dtc.reader = some x ∧ x.kind = k ∧
    x.snapshot = used.dtc.copy ∧ (directoryWrite k n).dtc.waiters = x.waiters) ∧ (∃ t, (directoryWrite k n).cart.tag = some t) ∧ (directoryWrite k n).dtc.failures = n ∧
    (directoryWrite k n).dtc.atRisk = false ∧ (directoryWrite k n).dtc.pendStale = none :=
  ⟨⟨rfl, rfl, rfl, nofun, rfl⟩, ⟨_, rfl, rfl, rfl, rfl⟩, ⟨_, rfl⟩, rfl, rfl, rfl⟩

/-- A stale mark in flight that a session of port A waits for. -/
def staleFor : State :=
  let s := sessionA .streaming 1 (directoryWrite .staleMark 0)
  s.setDtc { s.dtc with reader := s.dtc.reader.map (fun y => { y with waiters := [0] }), waiters := [0] }

theorem witness_DirectoryWritesEnd_stale : staleFor.Calm ∧ (∃ x, staleFor.dtc.reader = some x ∧ x.kind = .staleMark ∧ x.waiters = [0]) ∧ staleFor.cart.tag.isSome = true ∧
    0 ∈ staleFor.dtc.waiters ∧ (staleFor.row 0).holder = some .a ∧ (staleFor.row 0).state.isOpen = true :=
  ⟨⟨rfl, rfl, rfl, by decide, rfl⟩, ⟨_, rfl, rfl, rfl⟩, rfl, by decide, rfl, rfl⟩

theorem witness_DirectoryWritesEnd_closing : let s := inState .closing (directoryWrite (.checkpoint true) 0)
    s.Calm ∧ (∃ x, s.dtc.reader = some x ∧ x.kind = .checkpoint true ∧ x.snapshot.isSome = true) ∧ s.cart.tag.isSome = true ∧ s.lsq.state = .closing :=
  ⟨⟨rfl, rfl, rfl, by decide, rfl⟩, ⟨_, rfl, rfl, rfl⟩, rfl, rfl⟩

/-! ## Witnesses: timers -/

/-- A session whose hold timer runs. -/
def holding (n : Nat) : State := used.setRow 0 { rowA (if n = 0 then .held else .streaming) n with holdTimer := some 20 }

theorem witness_HoldAndIntervalTimers : used.Calm ∧ (used.row 0).holdTimer = none ∧ (holding 1).Calm ∧ ((holding 1).row 0).state.isActive = true ∧
    ((holding 1).row 0).holdTimer.isSome = true ∧ (holding 1).placingFor 0 = false ∧ (holding 1).assemblingOf 0 = none ∧ 0 < ((holding 1).row 0).unverified ∧
    (holding 0).Calm ∧ ((holding 0).row 0).state.isActive = true ∧ ((holding 0).row 0).holdTimer.isSome = true ∧ (holding 0).placingFor 0 = false ∧
    (holding 0).assemblingOf 0 = none ∧ ((holding 0).row 0).unverified = 0 ∧ (holding 0).msc.turn = none ∧ (holding 0).msc.atWrite ≠ some 0 ∧
    (holding 0).dtc.copy.isSome = true ∧ (holding 0).dtc.pendCheckpoint = none ∧ State.reset.dtc.interval = none ∧ used.dtc.interval.isSome = true ∧
    (pendBoth 0 0).dtc.interval.isSome = true ∧ (pendBoth 0 0).dtc.pendCheckpoint.isSome = true :=
  ⟨used_calm, rfl, ⟨rfl, rfl, rfl, by decide, rfl⟩, rfl, rfl, by decide, by decide, by decide, ⟨rfl, rfl, rfl, by decide, rfl⟩, rfl, rfl, by decide, by decide, rfl, rfl,
    by decide, rfl, rfl, rfl, rfl, rfl, rfl⟩

/-- A slot that assembles the session's next segment, with an entry in it or none. -/
theorem witness_HoldAndIntervalTimers_assembling (l : List Entry) (n : Nat) : let s := withSlots [assembling l []] (holding n)
    s.Calm ∧ (s.row 0).state.isActive = true ∧ (s.row 0).holdTimer.isSome = true ∧ s.placingFor 0 = false ∧ s.assemblingOf 0 = some 0 ∧ (s.slot 0).entries = l ∧
    (s.row 0).unverified = n ∧ s.msc.turn = none ∧ s.msc.atWrite ≠ some 0 ∧ s.dtc.copy.isSome = true ∧ s.dtc.pendCheckpoint = none :=
  ⟨⟨rfl, rfl, rfl, nofun, rfl⟩, by cases n <;> rfl, rfl, rfl, rfl, rfl, rfl, rfl, nofun, rfl, rfl⟩

/-- A cleaning run that runs, with the passes given left. -/
def cleaning (n : Nat) : State :=
  let s := turning (.library .cleaningRun) .cleaning .streaming (used.setLsq { used.lsq with state := .cleaning, kind := .cleaning, load := some .going })
  s.setHcm { s.hcm with meter := 60000000, level := .required, reason := some .meter, run := .running n 45 }

theorem witness_CleaningCompletes (n : Nat) : (∀ k m, used.hcm.run ≠ .running k m) ∧ (cleaning n).hcm.run = .running n 45 ∧ (cleaning n).msc.travel = 0 ∧
    (cleaning n).lsq.load = some .going ∧ (∀ r, ((cleaning n).row r).state = .none) :=
  ⟨nofun, rfl, rfl, rfl, show ∀ r, (used.row r).state = .none by decide⟩

/-- A drain that streams, with the bytes of its window given. -/
def reviewed (level : Level) (bytes : Nat) (pending : Option Level) : State :=
  let s := turning (.drain 0 .a) .runningOut .streaming (sessionA .streaming 1 used)
  s.setWvu { s.wvu with rate := { level := level, subject := .session 0, streamed := 2, bytes := bytes, pendingLower := pending, backhitches := 1 } }

theorem witness_RateReviewsChoose_not : used.msc.turn = none ∧ (∃ y, (cleaning 1).msc.turn = some y ∧
    ¬ ((∃ r p, y.job = .drain r p) ∨ (∃ p, y.job = .read p) ∨ (∃ p, y.job = .fill p))) :=
  ⟨rfl, _, rfl, by rintro (⟨_, _, h⟩ | ⟨_, h⟩ | ⟨_, h⟩) <;> cases h⟩

theorem witness_RateReviewsChoose (x : Level) (n : Nat) (d : Option Level) : used.msc.motion ≠ .streaming ∧ (reviewed x n d).msc.motion = .streaming ∧
    (∃ y, (reviewed x n d).msc.turn = some y ∧ y.job = .drain 0 .a) ∧
    (reviewed x n d).wvu.rate.subject ≠ .nobody ∧ 17 * 1973790 ≤ levelSpeed .l1 * 8388608 ∧
    (∀ l, levelRank l < levelRank .l1 → levelSpeed l * 8388608 < 17 * 0) ∧ ∀ l, levelRank l < levelRank .l5 → levelSpeed l * 8388608 < 17 * 20000000 :=
  ⟨nofun, rfl, ⟨_, rfl, rfl⟩, nofun, by decide, fun l => by cases l <;> decide, fun l => by cases l <;> decide⟩

/-! ## Witnesses: the transport -/

/-- A Rewind of logical partition 1 in service at port A, port B's Rewind beside it or not, with the burst given. -/
def rewinding (other : Bool) (burst : Nat) : State :=
  let s := busyA (inHand1 5 (.rewind (some 1)) .tape) used
  let s := if other then s.setPort .b { quiet with inService := some (inHand1 6 (.rewind (some 1)) .tape) } else s
  s.setMsc { s.msc with burst := burst }

/-- A piece of library work in the state given. -/
def libraryWork (w : LibWork) (x : LoadState) : State := let s := inState x used; s.setMsc { s.msc with libWork := some w }

theorem witness_TurnsAreGranted : (cleaning 1).Calm ∧ (cleaning 1).msc.turn.isSome = true ∧ (cleaning 1).msc.activity ≠ .backhitched ∧
    (cleaning 1).msc.activity ≠ .runningOut ∧ used.Calm ∧ used.portWork .a = none ∧ used.portWork .b = none ∧ (libraryWork .returnHome .recovering).Calm ∧
    (libraryWork .returnHome .recovering).msc.libWork = some .returnHome ∧ (libraryWork .returnHome .recovering).msc.atWrite = none ∧
    (rewinding true 7).Calm ∧ (rewinding true 7).msc.turn = none ∧ (rewinding true 7).msc.burst < 8 ∧ (rewinding true 7).sessionOf .a = none ∧
    (rewinding true 8).Calm ∧ 8 ≤ (rewinding true 8).msc.burst ∧ (rewinding true 8).msc.lastServed = .a ∧ (rewinding false 8).Calm ∧
    (rewinding false 8).portWork .b = none :=
  ⟨⟨rfl, rfl, rfl, by decide, rfl⟩, rfl, by decide, by decide, used_calm, by decide, by decide, ⟨rfl, rfl, rfl, by decide, rfl⟩, rfl, rfl, ⟨rfl, rfl, rfl, by decide, rfl⟩, rfl,
    by decide, rfl, ⟨rfl, rfl, rfl, by decide, rfl⟩, by decide, rfl, ⟨rfl, rfl, rfl, by decide, rfl⟩, by decide⟩

/-- A positioning command's goal. -/
def goalOf (a : Aim) : Goal := { part := 0, logical := 1, aim := a, wanted := 0, marksCounted := false, spacing := false, validates := true, result := .ok, residual := none }

/-- A positioning turn in a relocation to a lane's start. -/
def moving (x : Next) (a : Aim) (c : HostCmd) : State :=
  turning (.position .a (goalOf a)) (.relocating { lane := 0, coord := 47999 } { lane := 0, coord := 0 } false x) .relocating (busyA (inHand1 5 c .tape) used)

theorem witness_RelocationsArrive : used.Calm ∧ used.msc.activity = .idle ∧ (moving .scan (.object 7) (.locate 1 7)).Calm ∧
    (moving .scan (.object 7) (.locate 1 7)).hcm.openRecord = none ∧ (moving .scan (.object 7) (.locate 1 7)).MeterQuiet 47999 ∧
    (moving .goal .bot (.rewind none)).Calm ∧ (moving .goal .bot (.rewind none)).msc.travel = 0 ∧ (moving .goal .bot (.rewind none)).sessionOf .a = none ∧
    (moving .goal .bot (.rewind none)).MeterQuiet 47999 :=
  ⟨used_calm, rfl, ⟨rfl, rfl, rfl, by decide, rfl⟩, rfl, ⟨by decide, by decide⟩, ⟨rfl, rfl, rfl, by decide, rfl⟩, rfl, rfl, ⟨by decide, by decide⟩⟩

/-- The unload rewind in progress, with the directory control's state given. -/
def unloadRewind (d : Dtc) : State :=
  turning (.library .unloadRewind) (.relocating { lane := 1, coord := 600 } { lane := 0, coord := 0 } false .home) .relocating ((inState .rewinding used).setDtc d)

theorem witness_RelocationsArrive_home (d : Dtc) : let s := unloadRewind d
    s.Calm ∧ s.msc.turn = some { job := .library .unloadRewind, written := 0, stopping := false, leaving := none } ∧
    s.msc.activity = .relocating { lane := 1, coord := 600 } { lane := 0, coord := 0 } false .home ∧ s.lsq.state = .rewinding ∧ s.dtc = d ∧
    used.dtc.copy.isSome = true ∧ used.dtc.pendCheckpoint = none ∧ (pendBoth 0 0).dtc.copy.isSome = true ∧ (pendBoth 0 0).dtc.pendCheckpoint.isSome = true ∧
    (faulted false).dtc.copy = none :=
  ⟨⟨rfl, rfl, rfl, nofun, rfl⟩, rfl, rfl, rfl, rfl, rfl, rfl, rfl, rfl, rfl⟩

/-- A fill on its way back to the end of the copy it has recovered, in the load state given. -/
def fillBack (x : LoadState) : State :=
  let s := turning (.fill .a) (.relocating { lane := 0, coord := 600 } { lane := 0, coord := 64 } false .resume) .relocating (inState x used)
  s.setRdu { s.rdu with fills := { a := .running 0 4, b := .none } }

theorem witness_RelocationsArrive_fill (x : LoadState) (h : x ≠ .standby) : let s := fillBack x
    s.Calm ∧ s.msc.turn = some { job := .fill .a, written := 0, stopping := false, leaving := none } ∧
    s.msc.activity = .relocating { lane := 0, coord := 600 } { lane := 0, coord := 64 } false .resume ∧ s.rdu.fills.get .a = .running 0 4 ∧ s.lsq.state = x ∧
    (fillBack .ready).fillAtLimit .a 0 4 = false :=
  ⟨⟨rfl, rfl, rfl, h, rfl⟩, rfl, rfl, rfl, rfl, by decide⟩

/-- R151: a fill stops where the state has left Ready, on its way back after a look-ahead too. -/
theorem test_fill_leaves_ready : (after (fillBack .draining) .relocationComplete).msc.turn = none ∧ (after (fillBack .ready) .relocationComplete).msc.turn.isSome = true := by decide +kernel

/-- A return to lane 0 that leaves partition 0's write point first, with the verify window given. -/
def leaving (w : List WindowEntry) : State :=
  let s := sessionA .streaming 1 (libraryWork .returnHome .recovering)
  (s.setMsc { s.msc with turn := some { job := .library .returnHome, written := 0, stopping := false, leaving := some 0 }, activity := .runningOut, motion := .streaming }).setWvu
    { s.wvu with window := w }

theorem witness_TransportWaitsEnd_leaving : (leaving []).Calm ∧ (∀ e ∈ (leaving []).wvu.window, e.row ≠ 0) ∧ (∀ e ∈ (leaving []).wvu.rewrites, e.row ≠ 0) ∧
    (leaving []).nextReady 0 = none ∧ (leaving []).hcm.openRecord = none ∧ (leaving []).msc.travel = 0 ∧
    (leaving [⟨0, 120, 0, 15⟩]).Calm ∧ (∃ e ∈ (leaving [⟨0, 120, 0, 15⟩]).wvu.window, e.row = 0) :=
  ⟨⟨rfl, rfl, rfl, by decide, rfl⟩, by decide, by decide, by decide, rfl, rfl, ⟨rfl, rfl, rfl, by decide, rfl⟩, by decide⟩

/-- A turn of port B's that leaves partition 0's write point first, with nothing left there to write. -/
def leavingFor (j : Job) (stopping : Bool) : State :=
  let s := sessionA .streaming 1 used
  let s := s.setRdu { s.rdu with reads := { a := none, b := some { object := 7, part := 0, limit := 4, phase := .awaitingTurn, first := none, held := [], lastRead := none, fallen := false } } }
  s.setMsc { s.msc with turn := some { job := j, written := 3, stopping := stopping, leaving := some 0 }, activity := .runningOut, motion := .streaming }

theorem witness_TransportWaitsEnd_jobs (j : Job) (b : Bool) (h : ∀ p, j ≠ .verify p) (hd : ∀ r p, j ≠ .drain r p) : (leavingFor j b).Calm ∧
    (leavingFor j b).msc.turn = some { job := j, written := 3, stopping := b, leaving := some 0 } ∧ (∀ e ∈ (leavingFor j b).wvu.window, e.row ≠ 0) ∧
    (∀ e ∈ (leavingFor j b).wvu.rewrites, e.row ≠ 0) ∧ (leavingFor j b).nextReady 0 = none ∧ (leavingFor j b).hcm.openRecord = none ∧
    (leavingFor j b).msc.travel = 0 ∧ (leavingFor j b).rdu.reads.get .b ≠ none := by
  refine ⟨⟨rfl, rfl, ?_, nofun, ?_⟩, rfl, nofun, nofun, show (leavingFor (.library .returnHome) true).nextReady 0 = none by decide, rfl, rfl, nofun⟩
  · cases j <;> first | rfl | exact absurd rfl (h _)
  · cases j <;> first | rfl | exact absurd rfl (hd _ _)

/-- A drain turn of port A's session on partition 0, whose write point is the slot 1,950, with the slots and the activity given. -/
def draining (l : List Slot) (x : Activity) : State :=
  let s := turning (.drain 0 .a) x .streaming (withSlots l (used.setRow 0 { rowA .streaming l.length with firstObject := 3000, nextSegment := 120 + l.length }))
  (s.setMsc { s.msc with head := placeOf 0 1950 }).setWvu { s.wvu with live := s.wvu.live.set 0 (some { count := 1950, lane := 0 }), rate := { s.wvu.rate with subject := .session 0 } }

/-- A READY slot of the session with the segment number given. -/
def nextSlot (n : Nat) : Slot := { readySlot n with header := { (readySlot n).header with firstObject := some (2880 + n), marksBefore := some 2 } }

/-- The drain waits after a backhitch. -/
def waitingDrain (l : List Slot) : State := let s := draining l .backhitched; s.setWvu { s.wvu with backhitch := some 0 }

theorem waitingDrain_settled (l : List Slot) (h : (waitingDrain l).otherEligible .a = false) : (waitingDrain l).Settled := by
  have hj : (waitingDrain l).job = some (.drain 0 .a) := rfl
  have hc : ∀ p, ((waitingDrain l).port p).cut = false := fun p => by cases p <;> rfl
  refine ⟨fun p hp => absurd hp (by simp [hc p]), fun p hp => ?_, nofun, fun r p hr _ => ?_⟩
  · rw [hj] at hp; cases hp
  · rw [hj] at hr; cases hr; exact h

/-- Three and four READY segments await the drain. -/
def threeReady : State := waitingDrain [nextSlot 120, nextSlot 121, nextSlot 122]
def fourReady : State := waitingDrain [nextSlot 120, nextSlot 121, nextSlot 122, nextSlot 123]

theorem witness_TransportWaitsEnd_three : threeReady.Settled ∧ threeReady.lsq.state ≠ .standby ∧ threeReady.ports.a.cut = false ∧ threeReady.ports.b.cut = false ∧
    threeReady.Draining 0 .a 0 ∧ threeReady.wvu.backhitch = some 0 ∧ threeReady.msc.activity = .backhitched ∧ threeReady.otherEligible .a = false ∧
    threeReady.readyCount 0 < 4 ∧ threeReady.drainDemand 0 = false :=
  ⟨waitingDrain_settled _ (by decide), nofun, rfl, rfl, rfl, rfl, rfl, by decide, by decide, by decide⟩

theorem witness_TransportWaitsEnd_backhitch : fourReady.Settled ∧ fourReady.lsq.state ≠ .standby ∧ fourReady.ports.a.cut = false ∧ fourReady.ports.b.cut = false ∧
    fourReady.Draining 0 .a 0 ∧ fourReady.wvu.backhitch = some 0 ∧ fourReady.msc.activity = .backhitched ∧ fourReady.otherEligible .a = false ∧
    4 ≤ fourReady.readyCount 0 ∧ fourReady.firstDue 0 = none ∧ fourReady.nextReady 0 = some 120 ∧ 16 ≤ fourReady.laneFree 0 ∧
    fourReady.msc.head = fourReady.writePlace 0 ∧ fourReady.wvu.rate.subject = .session 0 :=
  ⟨waitingDrain_settled _ (by decide), nofun, rfl, rfl, rfl, rfl, rfl, by decide, by decide, by decide, by decide, by decide, by decide, rfl⟩

theorem witness_TransportWaitsEnd_draining : (inState .draining used).lsq.state = .draining ∧ (∀ r, ((inState .draining used).row r).state = .none) ∧
    (∀ p c, ((inState .draining used).port p).inService = some c → c.cmd = .unloadRequest) ∧
    (∃ r, ((sessionA .closing 1 (inState .draining used)).row r).state.isOpen = true) :=
  ⟨rfl, by decide, fun p c h => by cases p <;> exact absurd h nofun, 0, rfl⟩

/-- A header scan for object 7 of partition 0, in the turn of a Locate. -/
def headerScan : State :=
  let s := turning (.position .a (goalOf (.object 7))) .scanning .streaming (busyA (inHand1 5 (.locate 1 7) .tape) used)
  s.setMsc { s.msc with scan := some { part := 0, target := .object 7, expected := 0, taken := [] } }

/-- The header of segment `n`, whose first entry describes the object given. -/
def headerOf (n first count : Nat) : SegHeader :=
  { part := 0, number := n, attempt := 0, firstObject := some first, marksBefore := some 0, entryCount := count, payloadLength := 0 }

theorem witness_HeadersAreMet : used.Calm ∧ used.msc.activity = .idle ∧ headerScan.Calm ∧ headerScan.msc.activity = .scanning ∧
    headerScan.msc.turn = some { job := .position .a (goalOf (.object 7)), written := 0, stopping := false, leaving := none } ∧
    headerScan.pastEnd 0 1949 = false ∧ headerScan.pastEnd 0 0 = false ∧ (119 : Nat) < headerScan.committedSegments 0 ∧ findIn 0 0 [.mark, .mark] (.object 7) = none ∧
    findIn 0 0 (List.replicate 8 .mark) (.object 7) = some (7, 7) ∧ 7 ≤ headerScan.committedObjects 0 ∧ headerScan.sessionOf .a = none ∧ headerScan.hcm.openRecord = none :=
  ⟨used_calm, rfl, ⟨rfl, rfl, rfl, by decide, rfl⟩, rfl, rfl, by decide, by decide, by decide, by decide, by decide, by decide, rfl, rfl⟩

/-- A copy under recovery in the turn given. -/
def copyOfSegment (n retries : Nat) (readable : StripeSet) : Acc :=
  { part := 0, number := n, attempt := some 0, lane := 0, offset := 1950, readable := readable, retries := retries, passed := 0, forScan := false, slot := none, content := none }

/-- The recovery scan of partition 0, with a copy of segment 120 in hand. -/
def recoveringAt (x : Activity) (a : Acc) : State :=
  let s := turning (.library .recoveryScan) x .streaming (inState .recovering used)
  ((s.setMsc { s.msc with head := placeOf 0 1950 }).setRdu { s.rdu with acc := some a }).setDtc
    { s.dtc with recovery := some { part := 0, start := usedPart, applied := [], expected := 120, endPlace := 1950 } }

/-- A positioning turn in the look-ahead of a copy. -/
def lookingAhead (retries : Nat) : State :=
  let s := turning (.position .a (goalOf (.object 7))) .lookingAhead .streaming (busyA (inHand1 5 (.locate 1 7) .tape) used)
  (s.setMsc { s.msc with head := placeOf 0 16, scan := some { part := 0, target := .object 7, expected := 0, taken := [] } }).setRdu
    { s.rdu with acc := some { copyOfSegment 0 retries 0 with offset := 0 } }

theorem witness_CopiesAreRecovered : (recoveringAt .reading (copyOfSegment 120 0 0)).Calm ∧
    (recoveringAt .reading (copyOfSegment 120 0 0)).msc.turn = some { job := .library .recoveryScan, written := 0, stopping := false, leaving := none } ∧
    readSubject (.library .recoveryScan) = none ∧ stripeCount ((0 : StripeSet) ||| 0x1FFF) < 14 ∧ 14 ≤ stripeCount ((0 : StripeSet) ||| 0x3FFF) ∧
    (lookingAhead 3).Calm ∧ (lookingAhead 3).recovering = false ∧ (lookingAhead 3).pastEnd 0 1949 = false ∧ readSubject (.position .a (goalOf (.object 7))) = none ∧
    stripeCount (addStripe 0 15) < 14 ∧ (lookingAhead 3).msc.activity = .lookingAhead :=
  ⟨⟨rfl, rfl, rfl, by decide, rfl⟩, rfl, rfl, by decide, by decide, ⟨rfl, rfl, rfl, by decide, rfl⟩, by decide, by decide, rfl, by decide, rfl⟩

/-- R71: a rewrite read at offset 64 passes its own slot, the 49th from offset 16 on. -/
theorem test_rewrite_passes_its_slot : let t := after (lookingAhead 0) (.rewriteStripeRead 64 0 0 3)
    t.msc.head = placeOf 0 65 ∧ t.msc.travel = 49 ∧ t.rdu.acc.map (·.passed) = some 49 := by decide +kernel

/-- A segment of two marks from object 2,000 on. -/
def twoMarks (n : Nat) : Segment :=
  { header := { blankHeader with number := n, firstObject := some 2000, marksBefore := some 0, entryCount := 2 }, entries := [.mark, .mark], payload := [] }

/-- A segment of one record, object 2,000. -/
def oneRecord (n : Nat) : Segment :=
  { header := { blankHeader with number := n, firstObject := some 2000, marksBefore := some 0, entryCount := 1, payloadLength := 1 }, entries := [.whole 1 1 .stored], payload := [7] }

/-- A segment that holds the beginning of object 2,000. -/
def oneFirst (n : Nat) : Segment :=
  { header := { blankHeader with number := n, firstObject := some 2000, marksBefore := some 0, entryCount := 1, payloadLength := 1 }, entries := [.first 10 1 .stored], payload := [7] }

/-- A copy of segment 80 in hand in a read-side slot of port A, in the turn given. -/
def readingInto (j : Job) (x : Activity) (retries : Nat) (c : HostCmd) : State :=
  let s := turning j x .streaming (busyA (inHand1 5 c .reading) used)
  let s := withSlots [{ Slot.free with state := .filling, owner := .port .a, header := { blankHeader with number := 80 } }] s
  let scan : ScanState :=
    { part := 0, start := 2000, objects := 3000, segments := 120, marks := 0, granted := true, checkedPoint := 2000, checkedMarks := 0, segmentsChecked := 0, pending := false, next := 80
      expectObject := none, expectMarks := 0, found := [], partial_ := none, fragments := 0, held := [], ended := none, already := [] }
  s.setRdu
    { reads := { a := if j = .read .a then some { object := 2000, part := 0, limit := 4, phase := .reading, first := some 80, held := [], lastRead := none, fallen := false } else none, b := none }
      fills := { a := if j = .fill .a then .running 0 80 else .none, b := .none }
      scans := { a := if j = .verify .a then some scan else none, b := none }
      acc := some { copyOfSegment 80 retries 0 with offset := 800, slot := some 0 } }

theorem witness_CopiesAreRecovered_read : let s := readingInto (.read .a) .reading 0 (.readRecord 4)
    let i : Slot := { Slot.free with state := .cached, owner := .port .a, header := (oneFirst 80).header, entries := (oneFirst 80).entries, payload := [7], lastUse := some 0, pinA := true }
    let u : State := { s with sbm := { s.sbm with slots := s.sbm.slots.set 0 i } }
    s.Calm ∧ (∃ a, s.rdu.acc = some a ∧ a.attempt = some 0 ∧ a.forScan = false ∧ a.slot = some 0 ∧ 14 ≤ stripeCount (a.readable ||| 0xFFFF)) ∧
    s.msc.activity = .reading ∧ (s.slot 0).state = .filling ∧ (s.slot 0).header.number = (oneFirst 80).header.number ∧
    s.msc.turn = some { job := .read .a, written := 0, stopping := false, leaving := none } ∧
    (∃ x, s.rdu.reads.get .a = some x ∧ u.lacking { x with held := x.held ++ [(80, 0)], lastRead := some 80 } ≠ none) :=
  ⟨⟨rfl, rfl, rfl, by decide, rfl⟩, ⟨_, rfl, rfl, rfl, rfl, by decide⟩, rfl, rfl, rfl, rfl, ⟨_, rfl, by decide⟩⟩

/-- The slot with the recovered segment of marks, and the one of the record, pinned. -/
def cachedMarks : Slot :=
  { Slot.free with state := .cached, owner := .port .a, header := (twoMarks 80).header, entries := (twoMarks 80).entries, lastUse := some 0 }
def cachedRecord : Slot :=
  { Slot.free with state := .cached, owner := .port .a, header := (oneRecord 80).header, entries := (oneRecord 80).entries, payload := [7], lastUse := some 0, pinA := true }

/-- The fill with 80 next, and the same one at the last committed segment. -/
theorem witness_CopiesAreRecovered_fill : let s := readingInto (.fill .a) .reading 0 .sync
    let u : State := { s with sbm := { s.sbm with slots := s.sbm.slots.set 0 cachedMarks } }
    s.Calm ∧ (∃ a, s.rdu.acc = some a ∧ a.attempt = some 0 ∧ a.forScan = false ∧ a.slot = some 0 ∧ s.rdu.fills.get .a = .running a.part 80) ∧ (s.slot 0).state = .filling ∧
    (s.slot 0).invalidated = false ∧ s.msc.turn = some { job := .fill .a, written := 0, stopping := false, leaving := none } ∧ u.workBesideFill .a = false ∧
    u.fillAtLimit .a 0 81 = false ∧ u.fillAtLimit .a 0 120 = true :=
  ⟨⟨rfl, rfl, rfl, by decide, rfl⟩, ⟨_, rfl, rfl, rfl, rfl, rfl⟩, rfl, rfl, rfl, by decide, by decide, by decide⟩

theorem witness_CopiesAreRecovered_scan : let s := readingInto (.verify .a) .reading 0 .verifyScan
    let u : State := { s with sbm := { s.sbm with slots := s.sbm.slots.set 0 cachedRecord } }
    s.ports.a.cut = false ∧ s.ports.b.cut = false ∧ s.lsq.state ≠ .standby ∧ s.msc.turn = some { job := .verify .a, written := 0, stopping := false, leaving := none } ∧
    (∃ x, s.rdu.scans.get .a = some x ∧ x.pending = false ∧ x.ended = none ∧ x.held = [] ∧ x.already = [] ∧ x.next = 80 ∧ 80 + 1 < x.segments ∧
      State.scanExpects x (oneRecord 80).header = true ∧
      (State.scanEntries .a (oneRecord 80).entries [7] (oneRecord 80).entries 0 2000
        { x with segmentsChecked := 1, held := [(80, 0, 2001)] } []).map (fun y => (State.passChecked y.1.found.length y.1).checkedPoint) = some 2000) ∧
    u.contenders .a = [] :=
  ⟨rfl, rfl, by decide, rfl, ⟨_, rfl, rfl, rfl, rfl, rfl, rfl, by decide, rfl, by decide⟩, by decide⟩

theorem witness_CopiesAreRecovered_fourth : let s := readingInto (.read .a) .lookingAhead 4 (.readRecord 4)
    s.Calm ∧ s.msc.activity = .lookingAhead ∧ (∃ a, s.rdu.acc = some a ∧ 4 ≤ a.retries ∧ a.forScan = false ∧ a.slot = some 0 ∧ a.attempt = some 0) ∧
    (s.slot 0).state = .filling ∧ (∃ x, s.rdu.reads.get .a = some x ∧ x.lastRead = none) ∧ (∃ y, (s.port .a).inService = some y ∧ y.cmd = .readRecord 4) ∧
    (∀ z ∈ s.sbm.slots, z.pinned = false) ∧ s.sessionOf .a = none :=
  ⟨⟨rfl, rfl, rfl, by decide, rfl⟩, rfl, ⟨_, rfl, by decide, rfl, rfl, rfl⟩, rfl, ⟨_, rfl, rfl⟩, ⟨_, rfl, rfl⟩, by decide, rfl⟩

/-- The recovery scan streaming behind the copy it applied. -/
def recoverySeeks : State := let s := recoveringAt .seeking (copyOfSegment 120 0 0); s.setRdu { s.rdu with acc := none }

/-- A look-ahead on lane 0, the head at the end of the copy, which ends the lane where it begins at 47,984. -/
def aheadAtEnd (o : Nat) : State :=
  let s := lookingAhead 0
  let s := s.setDtc { s.dtc with copy := some { type := .dataS, parts := [{ usedPart with used := 60000 }], current := true } }
  (s.setMsc { s.msc with head := placeOf 0 (o + 16) }).setAcc (some { copyOfSegment 80 0 0 with offset := o })

theorem witness_LanesAndBlankTape_ahead (o : Nat) : let s := aheadAtEnd o
    s.Calm ∧ s.msc.activity = .lookingAhead ∧ (∃ a, s.rdu.acc = some a ∧ a.offset = o ∧ s.msc.head.lane = a.lane) ∧
    (∃ j, s.msc.turn = some { job := j, written := 0, stopping := false, leaving := none }) ∧ s.recovering = false ∧
    s.msc.head.lane + 1 < s.partFirst 0 + s.partLanes 0 ∧ 48000 * (s.msc.head.lane + 1 - s.partFirst 0) < s.recordedUsed 0 :=
  ⟨⟨rfl, rfl, rfl, nofun, rfl⟩, rfl, ⟨_, rfl, rfl, rfl⟩, ⟨_, rfl⟩, rfl, show 0 + 1 < 0 + 64 by decide, show 48000 * (0 + 1 - 0) < 60000 by decide⟩

/-- R145: a copy that ends its lane leaves no slot of it to pass; from any other the last slot counts. -/
theorem test_look_ahead_across_lanes : ((after (aheadAtEnd 47984) (.laneEndReached [])).rdu.acc.map (·.passed)) = some 0 ∧
    ((after (aheadAtEnd 47983) (.laneEndReached [])).rdu.acc.map (·.passed)) = some 1 := by decide +kernel

/-- A header scan near the end of lane 0 of a partition that goes on on lane 1. -/
def scanAtEnd : State :=
  let s := headerScan
  (s.setDtc { s.dtc with copy := some { type := .dataS, parts := [{ usedPart with used := 50000 }], current := true } }).setMsc { s.msc with head := placeOf 0 47998 }

theorem witness_LanesAndBlankTape : recoverySeeks.Calm ∧ recoverySeeks.msc.activity = .seeking ∧
    recoverySeeks.msc.turn = some { job := .library .recoveryScan, written := 0, stopping := false, leaving := none } ∧ recoverySeeks.dtc.recovery.isSome = true ∧
    (∃ d, recoverySeeks.dtc.copy = some d ∧ d.parts[0]? = some usedPart ∧ d.parts[1]? = none) ∧ used.Calm ∧ used.msc.activity = .idle ∧
    scanAtEnd.Calm ∧ scanAtEnd.msc.activity = .scanning ∧ scanAtEnd.msc.head.lane + 1 < scanAtEnd.partFirst 0 + scanAtEnd.partLanes 0 ∧
    48000 * (scanAtEnd.msc.head.lane + 1 - scanAtEnd.partFirst 0) < scanAtEnd.recordedUsed 0 ∧
    scanAtEnd.hcm.openRecord = none ∧ scanAtEnd.MeterQuiet 2 :=
  ⟨⟨rfl, rfl, rfl, by decide, rfl⟩, rfl, rfl, rfl, ⟨_, rfl, rfl, rfl⟩, used_calm, rfl, ⟨rfl, rfl, rfl, by decide, rfl⟩, rfl, by decide, by decide, rfl, ⟨by decide, by decide⟩⟩

/-- A rewrite of stripe 3 of segment 119, due. -/
def rewriteOf (n made : Nat) (due : Bool) : RewriteEntry := { row := 0, segment := n, stripe := 3, made := made, due := due, offset := 1934 }

/-- A session whose segment 120 is being written, or a rewrite of it. -/
def writing (rewrite : Bool) : State :=
  let s := draining [nextSlot 120, nextSlot 121] (.writing (if rewrite then .rewrite 120 3 else .segment 120))
  s.setWvu { s.wvu with rewrites := if rewrite then [rewriteOf 120 0 true] else [] }

theorem witness_WritingAdvances (b : Bool) : (writing b).Calm ∧ (writing b).Draining 0 .a 0 ∧ 32 ≤ (writing b).laneFree 0 ∧ (writing b).writeSlotOf 0 120 = some 0 ∧
    (writing false).firstDue 0 = none ∧ (writing false).msc.activity = .writing (.segment 120) ∧ (writing true).msc.activity = .writing (.rewrite 120 3) := by
  cases b <;> exact ⟨⟨rfl, rfl, rfl, by decide, rfl⟩, rfl, by decide, by decide, by decide, rfl, rfl⟩

/-- The window run out at the end of the session's relative lane `k` with segment 120 to write, on a partition of 64 lanes. -/
def laneOut (k : Nat) : State :=
  let s := turning (.drain 0 .a) .runningOut .streaming (withSlots [nextSlot 120] (used.setRow 0 { rowA .streaming 1 with firstObject := 3000, nextSegment := 121 }))
  (s.setMsc { s.msc with head := placeOf k 47990 }).setWvu
    { s.wvu with live := s.wvu.live.set 0 (some { count := 48000 * k + 47990, lane := k }), rate := { s.wvu.rate with subject := .session 0 } }

theorem witness_WritingAdvances_tail : let s := laneOut 0
    let u := s.headTo 48000
    s.ports.a.cut = false ∧ s.ports.b.cut = false ∧ s.lsq.state ≠ .standby ∧ s.Draining 0 .a 0 ∧ s.msc.activity = .runningOut ∧ u.msc.turn = s.msc.turn ∧
    u.outstanding 0 = false ∧ u.firstDue 0 = none ∧ u.nextReady 0 = some 120 ∧ u.laneFree 0 < 16 ∧ (u.writePoint 0).1 + 1 < u.partLanes 0 :=
  ⟨rfl, rfl, by decide, rfl, rfl, rfl, by decide, by decide, by decide, by decide, by decide⟩

/-- R71: a rewrite written in slot 47,999 passes that slot. -/
theorem test_last_slot_counts : ((streamingAt 0 47999).headTo 48000).msc.travel = 1 ∧ ((streamingAt 0 47998).headTo 48000).msc.travel = 2 ∧
    (((streamingAt 0 47999).headTo 48000).headTo 48000).msc.travel = 1 := by decide

theorem witness_WritingAdvances_last : let s := laneOut 63
    let u := s.headTo 48000
    s.Draining 0 .a 0 ∧ s.msc.activity = .runningOut ∧ u.outstanding 0 = false ∧ u.firstDue 0 = none ∧ u.nextReady 0 = some 120 ∧ u.laneFree 0 < 16 ∧
    u.partLanes 0 ≤ (u.writePoint 0).1 + 1 ∧ (u.row 0).holder = some .a ∧ (u.row 0).state.isOpen = true :=
  ⟨rfl, rfl, by decide, by decide, by decide, by decide, by decide, rfl, rfl⟩

/-- Segment 121 is being written while the outcome of segment 120 arrives, with the rewrites given. -/
def arriving (l : List RewriteEntry) : State :=
  let s := draining [{ nextSlot 120 with state := .unverified, offset := 1950 }, nextSlot 121] (.writing (.segment 121))
  (s.setMsc { s.msc with head := placeOf 0 1966 }).setWvu
    { s.wvu with live := s.wvu.live.set 0 (some { count := 1966, lane := 0 }), window := [{ row := 0, segment := 120, attempt := 0, lastStripe := 1965 }], rewrites := l }

theorem witness_OutcomesAreTaken (l : List RewriteEntry) : (arriving l).Calm ∧ (arriving l).Draining 0 .a 0 ∧ (arriving l).msc.activity = .writing (.segment 121) ∧
    (arriving l).nextReady 0 = some 121 ∧ (arriving l).wvu.window = { row := 0, segment := 120, attempt := 0, lastStripe := 1965 } :: [] ∧
    ((arriving l).writePoint 0).2 < min 48000 (1965 + 33) ∧ (arriving l).wvu.completion = [] ∧ (arriving l).partDir 0 = some usedPart ∧
    120 = usedPart.segments ∧ (arriving l).writeSlotOf 0 120 = some 0 ∧ ((arriving l).slot 0).state = .unverified ∧ ((arriving l).row 0).state = .streaming ∧
    (arriving [rewriteOf 120 1 false, { rewriteOf 120 2 false with stripe := 5 }]).awaitedRewrite 120 3 = some (rewriteOf 120 1 false) ∧
    ((arriving l).writePoint 0).2 < min 48000 ((rewriteOf 120 1 false).offset + 33) ∧
    (arriving [rewriteOf 120 2 false]).awaitedRewrite 120 3 = some (rewriteOf 120 2 false) :=
  ⟨⟨rfl, rfl, rfl, nofun, rfl⟩, rfl, rfl, show (arriving []).nextReady 0 = some 121 by decide, rfl, show ((arriving []).writePoint 0).2 < min 48000 (1965 + 33) by decide, rfl, rfl, rfl,
    show (arriving []).writeSlotOf 0 120 = some 0 by decide, rfl, rfl, by decide, show ((arriving []).writePoint 0).2 < min 48000 (1934 + 33) by decide, by decide⟩

/-- A third rewrite of segment 120 awaits its outcome, the segment's attempt as given. -/
def thirdFails (attempt : Nat) : State :=
  let x := { nextSlot 120 with state := .unverified, offset := 1950 }
  let s := arriving [rewriteOf 120 3 false]
  (s.setSbm { s.sbm with slots := s.sbm.slots.set 0 { x with header := { x.header with attempt := attempt } } }).setWvu { s.wvu with window := [] }

theorem witness_OutcomesAreTaken_requeued : let s := thirdFails 1
    s.Calm ∧ s.Draining 0 .a 0 ∧ s.msc.activity = .writing (.segment 121) ∧ s.nextReady 0 = some 121 ∧ s.awaitedRewrite 120 3 = some (rewriteOf 120 3 false) ∧
    (∀ x ∈ s.sbm.slots, State.requeues 0 120 x = true → x.header.attempt < 2) ∧ s.msc.head = s.writePlace 0 ∧ 16 ≤ s.laneFree 0 ∧
    ({ s with wvu := { s.wvu with rewrites := [] } }).firstDue 0 = none :=
  ⟨⟨rfl, rfl, rfl, by decide, rfl⟩, rfl, rfl, by decide, by decide, by decide, by decide, by decide, by decide⟩

theorem witness_OutcomesAreTaken_lost : let s := thirdFails 2
    s.Calm ∧ s.Draining 0 .a 0 ∧ s.msc.activity = .writing (.segment 121) ∧ s.nextReady 0 = some 121 ∧ s.awaitedRewrite 120 3 = some (rewriteOf 120 3 false) ∧
    (∃ x ∈ s.sbm.slots, State.requeues 0 120 x = true ∧ 2 ≤ x.header.attempt) ∧ (s.row 0).holder = some .a ∧ (s.row 0).state.isOpen = true :=
  ⟨⟨rfl, rfl, rfl, by decide, rfl⟩, rfl, rfl, by decide, by decide, by decide, rfl, rfl⟩

/-! ## Witnesses: rules stated whole -/

theorem witness_CausesAreKept : used.resetLine = false ∧ (1 : Nat) ≤ 1 := ⟨rfl, by decide⟩

/-- The closing checkpoint in flight in Closing, after two failures. -/
def closingCheckpoint : State := inState .closing (directoryWrite (.checkpoint true) 2)

theorem witness_CheckpointFailuresAreCounted : closingCheckpoint.Calm ∧ (∃ x, closingCheckpoint.dtc.reader = some x ∧ x.kind = .checkpoint true) ∧
    closingCheckpoint.dtc.atRisk = false ∧ closingCheckpoint.dtc.failures = 2 ∧ (directoryWrite (.checkpoint false) 1).Calm ∧
    (directoryWrite (.checkpoint false) 1).dtc.failures < 2 ∧ (directoryWrite .staleMark 1).Calm ∧ (∃ x, (directoryWrite .staleMark 1).dtc.reader = some x ∧ x.kind = .staleMark) ∧
    (directoryWrite (.checkpoint false) 1).dtc.atRisk = false :=
  ⟨⟨rfl, rfl, rfl, by decide, rfl⟩, ⟨_, rfl, rfl⟩, rfl, rfl, ⟨rfl, rfl, rfl, by decide, rfl⟩, by decide, ⟨rfl, rfl, rfl, by decide, rfl⟩, ⟨_, rfl, rfl⟩, rfl⟩

theorem witness_OptionsAreSet : used.Serves .a ∧ used.Calm ∧ used.sessionOf .a = none ∧ (sessionA .streaming 1 used).Serves .a ∧ (sessionA .streaming 1 used).Calm ∧
    (sessionA .streaming 1 used).sessionOf .a = some 0 ∧ used.resetLine = false ∧ used.tagInUse .a 255 = false :=
  ⟨used_serves .a, used_calm, rfl, ⟨rfl, rfl, rfl, rfl, rfl, rfl, rfl⟩, ⟨rfl, rfl, rfl, by decide, rfl⟩, rfl, rfl, rfl⟩

/-- R114: a slot pinned when its port's read-ahead is turned off is freed when the pin drops, though the option is on again by then. -/
theorem test_release_outlives_option : let s := withSlots [{ Slot.free with state := .cached, owner := .port .a, pinB := true }] used
    let t := after (after s (.setPortOptions .a 1 1 0 0)) (.setPortOptions .a 2 1 0 1)
    (t.slot 0).state = .cached ∧ (t.port .a).options.readAhead = true ∧ (t.dropPins .b).slot 0 = Slot.free ∧ ((s.dropPins .b).slot 0).state = .cached := by
  decide +kernel

theorem witness_OptionsAreSet_write : ready.Serves .a ∧ ready.Calm ∧ ready.sessionOf .a = none ∧ ready.context .a = some bot ∧ ready.Resolves .a bot.logical grant1 (freshPart 64) ∧
    ready.writeProtected 0 = false ∧ (ready.row 0).state = .none ∧ bot.object = (freshPart 64).objects ∧ ready.hcm.level ≠ .required ∧
    ready.admits 0 (ready.newSlots 0 (.writeRecord 1)) = true ∧ ready.assemblingOf 0 = none ∧ ready.sbm.requests = [] ∧ slotForWriting ready.sbm.slots = some 0 :=
  ⟨ready_serves .a, ready_calm, rfl, rfl, ⟨rfl, rfl⟩, rfl, rfl, rfl, by decide, by decide, by decide, rfl, by decide⟩

theorem witness_OptionsAreSet_continuing : appending.Serves .a ∧ appending.Calm ∧ appending.sessionOf .a = some 0 ∧ appending.context .a = some bot ∧
    appending.Resolves .a bot.logical grant1 (freshPart 64) ∧ (appending.row 0).state.isActive = true ∧ (appending.row 0).closeDue = .no ∧
    bot.object = (appending.row 0).firstObject + (appending.row 0).admitted ∧ appending.admits 0 (appending.newSlots 0 (.writeRecord 1048576)) = true ∧
    appending.assemblingOf 0 ≠ none ∧ appending.rcx.intake.get .a = .empty :=
  ⟨⟨rfl, rfl, rfl, rfl, rfl, rfl, rfl⟩, ⟨rfl, rfl, rfl, by decide, rfl⟩, rfl, rfl, ⟨rfl, rfl⟩, rfl, rfl, rfl, by decide, by decide, rfl⟩

/-! ## The judging of frames, with figures worked out from the spec -/

/-- spec/11 11.6: the frame check is the CRC-32 of the generator 0x04C11DB7, whose check value for the digits 1 to 9 is 0xCBF43926. -/
theorem test_frameCheck : frameCheck [0x31, 0x32, 0x33, 0x34, 0x35, 0x36, 0x37, 0x38, 0x39] = 0xCBF43926 := by decide +kernel
/-- R186: the characters from the length through the check sum to 0 modulo 256: a Load is 01, 01, FE. -/
theorem test_library_frame : (receive (.assembling [1, 1]) (.good 0xFE)) = (.hunting, some (.taken [1])) ∧ libraryRow [1] = some .load ∧
    (receive (.assembling [1, 1]) (.good 0xFD)) = (.hunting, some .rejected) ∧ receive (.assembling []) (.good 0) = (.hunting, some .rejected) := by decide
/-- R189: an unknown code, and a body that does not fit its code, are no command. -/
theorem test_library_misfit : libraryRow [12] = none ∧ libraryRow [3] = none ∧ libraryRow [9, 6, 1, 44] = some (.setSetting 6 300) := by decide
end Sys2Proof.Tests
end

section
/-! PROOF. The waits of the segment buffer: the oldest waiting slot request is granted (R102 to R104), and a Read Record that awaits a read-side slot becomes eligible again (R113, R143). Settles O31. -/

namespace Sys2Proof.Proofs.SlotWaits

open Sys2Proof.Machine Sys2Proof.Machine.State

/-! ## Rules of the operations -/

/-- A port after the data credit of its Write Record `c` of raw length `n` (R103, R183). -/
def creditedPort (x : PortState) (c : InService) (n : Nat) : PortState :=
  { x with tx := x.tx ++ [.dataRequest c.tag n], credit := some n, inService := some { c with phase := .receiving } }

theorem giveCredit_writeRecord {s : State} {p : Port} {c : InService} {n : Nat} (hc : (s.port p).inService = some c)
    (hn : c.cmd = .writeRecord n) : s.giveCredit p = s.setPort p (creditedPort (s.port p) c n) := by
  simp only [giveCredit, hc, hn, sendHost, setPhase, port_setPort, setPort_setPort, creditedPort]

/-- A request is granted only where one waits and a slot may be taken (R102). -/
theorem grantRequest_notDue {s : State} (h : s.sbm.requests = [] ∨ slotForWriting s.sbm.slots = none) : s.grantRequest = s := by
  cases hq : s.sbm.requests with
  | nil => simp only [grantRequest, hq]
  | cons q rest =>
    have hi : slotForWriting s.sbm.slots = none := h.resolve_left (by simp [hq])
    simp only [grantRequest, hq, hi]

/-- The oldest request, when it is for a credit, gives its session the slot and its port the credit (R102, R103). -/
theorem grantRequest_credit {s : State} {r : Part} {p : Port} {rest : List SlotRequest} {i : Nat}
    (hq : s.sbm.requests = { row := r, port := p, reason := .credit } :: rest) (hi : slotForWriting s.sbm.slots = some i) :
    s.grantRequest = ((s.setSbm { s.sbm with requests := rest }).takeSlot i r).giveCredit p := by
  simp only [grantRequest, hq, hi, serveRequest, List.drop_succ_cons, List.drop_zero]

/-- Only a transport that stands at a segment for want of a slot has a Verify Scan's slot wait to end (R113, R153). -/
theorem endScanWait_notAwaiting {s : State} (h : s.msc.activity ≠ .awaitingSlot) (p : Port) : s.endScanWait p = s := by
  unfold endScanWait
  split
  · next ha _ => exact absurd ha h
  · rfl

theorem endReadWait_noSlot {s : State} {p : Port} (h : slotForRead s.sbm.slots p = none) : s.endReadWait p = s := by
  cases hx : s.rdu.reads.get p with
  | none => simp only [endReadWait, hx]
  | some x => simp [endReadWait, hx, h]

theorem endReadWait_slot {s : State} {p : Port} {x : ReadState} (hx : s.rdu.reads.get p = some x) (hw : x.phase = .awaitingSlot)
    (hs : (slotForRead s.sbm.slots p).isSome = true) : s.endReadWait p = s.setRead p (some { x with phase := .awaitingTurn }) := by
  simp [endReadWait, hx, hw, hs]

/-! ## What stays calm (R29, R58, R66, R155) -/

/-- A change of one port leaves every Port Cut as it is when it leaves that port's own. -/
theorem cut_setPort {s : State} {p : Port} {x : PortState} (h : x.cut = (s.port p).cut) (q : Port) :
    ((s.setPort p x).port q).cut = (s.port q).cut := by
  by_cases hq : p = q
  · subst hq; rw [port_setPort, h]
  · rw [port_setPort_other _ _ hq]

theorem calm_takeSlot {s : State} (h : s.Calm) (i : Nat) (r : Part) : (s.takeSlot i r).Calm :=
  h.congr (fun _ => rfl) rfl rfl rfl

theorem calm_credited {s : State} (h : s.Calm) (p : Port) (c : InService) (n : Nat) :
    (s.setPort p (creditedPort (s.port p) c n)).Calm :=
  h.congr (cut_setPort rfl) rfl rfl rfl

theorem calm_setRead {s : State} (h : s.Calm) (p : Port) (x : Option ReadState) : (s.setRead p x).Calm :=
  h.congr (fun _ => rfl) rfl rfl rfl

/-! ## The two rows -/

theorem exec_slotRequestGranted (s : State) : exec .slotRequestGranted s = .next s.grantRequest.settle := rfl

theorem exec_readSlotWaitEnds (p : Port) (s : State) :
    exec (.readSlotWaitEnds p) s = .next ((s.endReadWait p).endScanWait p).settle := rfl

theorem slotRequestGranted_notDue {s : State} (h : s.Calm) (hd : s.sbm.requests = [] ∨ slotForWriting s.sbm.slots = none) :
    exec .slotRequestGranted s = .next s := by
  rw [exec_slotRequestGranted, grantRequest_notDue hd, settle_calm h]

theorem slotRequestGranted_credit {s : State} (h : s.Calm) {r : Part} {p : Port} {rest : List SlotRequest} {i n : Nat} {c : InService}
    (hq : s.sbm.requests = { row := r, port := p, reason := .credit } :: rest) (hi : slotForWriting s.sbm.slots = some i)
    (hc : (s.port p).inService = some c) (hn : c.cmd = .writeRecord n) :
    exec .slotRequestGranted s =
      .next (((s.setSbm { s.sbm with requests := rest }).takeSlot i r).setPort p (creditedPort (s.port p) c n)) := by
  have hcalm : ((s.setSbm { s.sbm with requests := rest }).takeSlot i r).Calm :=
    calm_takeSlot (h.congr (fun _ => rfl) rfl rfl rfl) i r
  have hserved : (((s.setSbm { s.sbm with requests := rest }).takeSlot i r).port p).inService = some c := hc
  rw [exec_slotRequestGranted, grantRequest_credit hq hi, giveCredit_writeRecord hserved hn, settle_calm (calm_credited hcalm p c n)]
  rfl

theorem readSlotWaitEnds_noSlot {s : State} (h : s.Calm) (ha : s.msc.activity ≠ .awaitingSlot) {p : Port}
    (hs : slotForRead s.sbm.slots p = none) : exec (.readSlotWaitEnds p) s = .next s := by
  rw [exec_readSlotWaitEnds, endReadWait_noSlot hs, endScanWait_notAwaiting ha, settle_calm h]

theorem readSlotWaitEnds_slot {s : State} (h : s.Calm) (ha : s.msc.activity ≠ .awaitingSlot) {p : Port} {x : ReadState}
    (hx : s.rdu.reads.get p = some x) (hw : x.phase = .awaitingSlot) (hs : (slotForRead s.sbm.slots p).isSome = true) :
    exec (.readSlotWaitEnds p) s = .next (s.setRead p (some { x with phase := .awaitingTurn })) := by
  have ha' : (s.setRead p (some { x with phase := .awaitingTurn })).msc.activity ≠ .awaitingSlot := ha
  rw [exec_readSlotWaitEnds, endReadWait_slot hx hw hs, endScanWait_notAwaiting ha', settle_calm (calm_setRead h ..)]

/-- Settles O31: each row is its operation and then `settle`, which does nothing at the calm moment that the operation leaves. -/
theorem slotWaitsEnd : Obligations.SlotWaitsEnd := by
  unfold Obligations.SlotWaitsEnd
  refine ⟨fun s h => ⟨slotRequestGranted_notDue h, ?_⟩, fun p x s h ha hx hw => ⟨readSlotWaitEnds_noSlot h ha, readSlotWaitEnds_slot h ha hx hw⟩⟩
  intro p r n c rest i hq hi hc hn
  exact slotRequestGranted_credit h hq hi hc hn

end Sys2Proof.Proofs.SlotWaits
end

section
/-! PROOF. The rate review: the level that a window's bytes choose, how the choice acts on the level (R137), and when the review is due (R136). Settles O49. -/

namespace Sys2Proof.Proofs.RateReview

open Sys2Proof.Machine Sys2Proof.Machine.State

/-! ## The order of the levels -/

theorem levelRank_le_l5 (l : Level) : levelRank l ≤ levelRank .l5 := by cases l <;> decide

theorem eq_of_levelRank_eq {l m : Level} : levelRank l = levelRank m → l = m := by cases l <;> cases m <;> decide

theorem ne_of_levelRank_lt {l m : Level} (h : levelRank l < levelRank m) : l ≠ m :=
  fun e => Nat.ne_of_lt h (congrArg levelRank e)

/-! ## The chosen level (R137) -/

/-- The chosen level keeps up with the window's bytes, unless no level below L5 does. -/
theorem chooseLevel_meets (b : Nat) : chooseLevel b = .l5 ∨ 17 * b ≤ levelSpeed (chooseLevel b) * 8388608 := by
  unfold chooseLevel
  cases h : [Level.l1, .l2, .l3, .l4].find? (fun l => 17 * b ≤ levelSpeed l * 8388608) with
  | none => exact .inl rfl
  | some l =>
    have hm : decide (17 * b ≤ levelSpeed l * 8388608) = true := List.find?_some (p := fun l => decide (17 * b ≤ levelSpeed l * 8388608)) h
    exact .inr (of_decide_eq_true hm)

theorem find?_cons_getD (p : Level → Bool) (l d : Level) (ls : List Level) :
    ((l :: ls).find? p).getD d = if p l = true then l else (ls.find? p).getD d := by
  rw [List.find?_cons]
  cases p l <;> rfl

/-- The search written out, from L1 up. -/
theorem chooseLevel_eq_ite (b : Nat) : chooseLevel b =
    if 17 * b ≤ levelSpeed .l1 * 8388608 then .l1 else if 17 * b ≤ levelSpeed .l2 * 8388608 then .l2
    else if 17 * b ≤ levelSpeed .l3 * 8388608 then .l3 else if 17 * b ≤ levelSpeed .l4 * 8388608 then .l4 else .l5 := by
  simp only [chooseLevel, find?_cons_getD, List.find?_nil, Option.getD_none, decide_eq_true_eq]

/-- The search goes up from L1: every level below its choice has been tried and falls short of the window's bytes. -/
theorem lt_of_levelRank_lt_chooseLevel {b : Nat} {l : Level} (h : levelRank l < levelRank (chooseLevel b)) :
    levelSpeed l * 8388608 < 17 * b := by
  rw [chooseLevel_eq_ite] at h
  (repeat' split at h) <;> cases l <;> simp only [levelRank, levelSpeed] at * <;> omega

/-- The rule of R137 leaves one choice. -/
theorem chooseLevel_eq {b : Nat} {c : Level} (hc : c = .l5 ∨ 17 * b ≤ levelSpeed c * 8388608)
    (hl : ∀ l, levelRank l < levelRank c → levelSpeed l * 8388608 < 17 * b) : chooseLevel b = c := by
  rcases Nat.lt_trichotomy (levelRank (chooseLevel b)) (levelRank c) with h | h | h
  · have hshort := hl _ h
    rcases chooseLevel_meets b with h5 | hm
    · exact absurd h (h5 ▸ Nat.not_lt.mpr (levelRank_le_l5 c))
    · exact absurd hm (Nat.not_le.mpr hshort)
  · exact eq_of_levelRank_eq h
  · have hshort := lt_of_levelRank_lt_chooseLevel h
    rcases hc with rfl | hm
    · exact absurd h (Nat.not_lt.mpr (levelRank_le_l5 _))
    · exact absurd hm (Nat.not_le.mpr hshort)

/-! ## How the choice acts (R137) -/

theorem review_higher {x : Rate} (h : levelRank x.level < levelRank (chooseLevel x.bytes)) :
    x.review = { x with level := chooseLevel x.bytes, streamed := 0, bytes := 0, backhitches := 0, pendingLower := none } := by
  simp only [Rate.review, if_pos h]

theorem review_equal {x : Rate} (h : chooseLevel x.bytes = x.level) :
    x.review = { x with streamed := 0, bytes := 0, backhitches := 0, pendingLower := none } := by
  simp only [Rate.review, if_neg (fun hlt => ne_of_levelRank_lt hlt h.symm), if_pos h]

theorem review_lower_first {x : Rate} (h : levelRank (chooseLevel x.bytes) < levelRank x.level) (hp : x.pendingLower = none) :
    x.review = { x with streamed := 0, bytes := 0, backhitches := 0, pendingLower := some (chooseLevel x.bytes) } := by
  simp only [Rate.review, if_neg (Nat.lt_asymm h), if_neg (ne_of_levelRank_lt h), hp]

theorem review_lower_again {x : Rate} {d : Level} (h : levelRank (chooseLevel x.bytes) < levelRank x.level) (hp : x.pendingLower = some d) :
    x.review = { x with level := levelMax (chooseLevel x.bytes) d, streamed := 0, bytes := 0, backhitches := 0, pendingLower := none } := by
  simp only [Rate.review, if_neg (Nat.lt_asymm h), if_neg (ne_of_levelRank_lt h), hp]

/-! ## When the review is due (R136) -/

theorem rateTurn_iff (j : Job) : rateTurn j = true ↔ (∃ r p, j = .drain r p) ∨ (∃ p, j = .read p) ∨ ∃ p, j = .fill p := by
  cases j with
  | drain r p => exact ⟨fun _ => .inl ⟨r, p, rfl⟩, fun _ => rfl⟩
  | read p => exact ⟨fun _ => .inr (.inl ⟨p, rfl⟩), fun _ => rfl⟩
  | fill p => exact ⟨fun _ => .inr (.inr ⟨p, rfl⟩), fun _ => rfl⟩
  | position | verify | truncate | library =>
    refine ⟨nofun, ?_⟩
    rintro (⟨_, _, h⟩ | ⟨_, h⟩ | ⟨_, h⟩) <;> cases h

theorem rateTurn_job_iff (s : State) :
    (s.job.map rateTurn).getD false = true ↔ ∃ y, s.msc.turn = some y ∧ rateTurn y.job = true := by
  unfold State.job
  cases s.msc.turn with
  | none => exact ⟨fun h => Bool.noConfusion h, fun ⟨_, hy, _⟩ => by cases hy⟩
  | some y => exact ⟨fun h => ⟨y, rfl, h⟩, fun ⟨_, hy, hj⟩ => by cases hy; exact hj⟩

theorem rateRuns_iff (s : State) : s.rateRuns = true ↔
    s.msc.motion = .streaming ∧ s.wvu.rate.subject ≠ .nobody ∧ ∃ y, s.msc.turn = some y ∧ rateTurn y.job = true := by
  simp only [rateRuns, Bool.and_eq_true, beq_iff_eq, bne_iff_ne, and_assoc, rateTurn_job_iff]

theorem exec_rateReview (s : State) : exec .rateReview s = .next s.reviewRate := rfl

theorem rateReview_due {s : State} (h : s.rateRuns = true) :
    exec .rateReview s = .next (s.setWvu { s.wvu with rate := s.wvu.rate.review }) := by
  rw [exec_rateReview, reviewRate, if_pos h]

theorem rateReview_notDue {s : State} (h : ¬ s.rateRuns = true) : exec .rateReview s = .next s := by
  rw [exec_rateReview, reviewRate, if_neg h]

/-- Settles O49: the conditions given leave `chooseLevel` as the only choice, and the review acts by its place above, at or below the level. -/
theorem rateReviewsChoose : Obligations.RateReviewsChoose := by
  unfold Obligations.RateReviewsChoose
  intro s x counts
  refine ⟨fun h => rateReview_notDue fun hr => ?_, fun c y hm hs hy hj hc hl => ?_⟩
  · obtain ⟨hm, hs, y, hy, hj⟩ := (rateRuns_iff s).mp hr
    rcases h with h | h | h | ⟨z, hz, hz'⟩
    · exact h hm
    · exact hs h
    · rw [h] at hy; cases hy
    · rw [hy] at hz; cases hz
      exact hz' ((rateTurn_iff _).mp hj)
  · have hdue : s.rateRuns = true := (rateRuns_iff s).mpr ⟨hm, hs, y, hy, (rateTurn_iff _).mpr hj⟩
    obtain rfl : chooseLevel x.bytes = c := chooseLevel_eq hc hl
    intro level pending
    have hreview : x.review = { x with level := level, streamed := 0, bytes := 0, backhitches := 0, pendingLower := pending } := by
      rcases Nat.lt_trichotomy (levelRank x.level) (levelRank (chooseLevel x.bytes)) with h | h | h
      · have hlevel : level = chooseLevel x.bytes := if_pos h
        have hpending : pending = none := if_neg fun hlt => Nat.lt_asymm h hlt.1
        rw [review_higher h, hlevel, hpending]
      · have he := (eq_of_levelRank_eq h).symm
        have hlevel : level = x.level := (if_neg (h ▸ Nat.lt_irrefl _)).trans (if_pos he)
        have hpending : pending = none := if_neg fun hlt => Nat.ne_of_gt hlt.1 h
        rw [review_equal he, hlevel, hpending]
      · cases hp : x.pendingLower with
        | none =>
          have hlevel : level = x.level := by simp only [level, if_neg (Nat.lt_asymm h), if_neg (ne_of_levelRank_lt h), hp]
          have hpending : pending = some (chooseLevel x.bytes) := if_pos ⟨h, hp⟩
          rw [review_lower_first h hp, hlevel, hpending]
        | some d =>
          have hlevel : level = levelMax (chooseLevel x.bytes) d := by
            simp only [level, if_neg (Nat.lt_asymm h), if_neg (ne_of_levelRank_lt h), hp, levelMax]
          have hpending : pending = none := if_neg fun hlt => Option.some_ne_none d (hp ▸ hlt.2)
          rw [review_lower_again h hp, hlevel, hpending]
    rw [rateReview_due hdue, ← hreview]

end Sys2Proof.Proofs.RateReview
end
